-- ==== Sys2Proof/Word.lean ====
section
/-! DEFINITION. The byte, the unit in which the part talks to every bus partner (Chapter 11), and
nothing else: the quantities of the P418 that are not bytes on a link are plain numbers with stated
ranges, so they are `Nat` (or `Int` for balances and the directory cursor key). -/

namespace Sys2Proof

/-- One byte as it crosses a link or the Command Port. -/
abbrev Byte := BitVec 8

/-- A set of the sixteen zones of a channel, zone `z` in bit `z` (R113, R120, R168). -/
abbrev ZoneMask := BitVec 16

end Sys2Proof
end

