-- ==== Sys2Proof/Syntax.lean ====
section
/-! DEFINITION. The steps of the part, one constructor per row of spec/opcode_table.json, in the
table's order. A row whose step is made at one of several lines, channels, slots or inputs names it;
a row that is a strobe of the Command Port carries what the strobe moves. -/

namespace Sys2Proof

/-- The two air channels (R121). -/
inductive Chan where
  | A
  | B
  deriving DecidableEq, Repr

/-- The number of an Intake Line (R58) or of an Answer-Back Input (R134). -/
abbrev LineNo := Fin 4

/-- Which byte of a command's frame a step of a command with arguments is (R161): the code that opens
the frame, or the last argument byte, at which the command is taken. The argument bytes between the
two are steps of the row ARGUMENT_BYTE. -/
inductive PortWrite where
  | code
  | last (b : Byte)
  deriving DecidableEq, Repr

/-- The rows of spec/opcode_table.json. -/
inductive Instr where
  | powerOn
  | autoclearComplete
  | portReset
  | tick
  /-- The sample, with its move, of a channel that takes a tick after the step of TICK (R107). -/
  | levelMove (c : Chan)
  | wheelVisit (slot : Nat)
  | deadlineExpired (slot : Nat)
  | windowEnd (slot : Nat)
  | launch
  | intakeByte (n : LineNo) (b : Byte)
  | idleByte (n : LineNo)
  | headerByte (n : LineNo)
  | admission
  | textByte (n : LineNo)
  | checkByte (n : LineNo)
  | skipByte (n : LineNo)
  /-- The tick, with its abort at the timeout, of a line that takes it after the step of TICK (R107). -/
  | idleTimeout (n : LineNo)
  /-- `sending`: the answer to the line's previous fetch is still being sent (R169). -/
  | receiptFetch (n : LineNo) (sending : Bool)
  | additionComplete
  | removalComplete
  | partitionComplete
  | purgeSlot
  | purgeComplete
  /-- `sending`: the answer to the channel's previous pull is still being sent (R170). -/
  | pull (c : Chan) (sending : Bool)
  | sent (c : Chan) (slot gen : Byte)
  | failed (c : Chan) (slot gen : Byte)
  /-- One byte on ABn-D; `marked` is the link's frame signal (R171). The fifth byte makes the frame
  arrive. -/
  | answerBackFrame (n : LineNo) (marked : Bool) (b : Byte)
  | answerBackService
  | serviceAnswer
  /-- `cd`: 1 reads the result buffer, 0 the status byte (R160, R163). -/
  | resultRead (cd : Bool)
  | argumentByte (b : Byte)
  | unknownCommandCode (b : Byte)
  | selSubscriber (w : PortWrite)
  | selAccount (w : PortWrite)
  | selPage (w : PortWrite)
  | selClear
  | portWidth (w : PortWrite)
  | noticeEnable (w : PortWrite)
  | noticeClear (w : PortWrite)
  | noticeRead
  | addSubscriber (w : PortWrite)
  | readSubscriber
  | writeField (w : PortWrite)
  | linkAccount
  | suspend
  | resume
  | retire
  | cursorSet (w : PortWrite)
  | cursorRead
  | cursorReadMarked
  | markMode (w : PortWrite)
  | partition (w : PortWrite)
  | memoryStatus
  | openAccount (w : PortWrite)
  | bar
  | unbar
  | adjustBalance (w : PortWrite)
  | writeLimit (w : PortWrite)
  | closeAccount
  | readAccount
  | tablePointer (w : PortWrite)
  | tableRead (w : PortWrite)
  | tableWrite (w : PortWrite)
  | lineEnable (w : PortWrite)
  | lineDisable (w : PortWrite)
  | lineFlush (w : PortWrite)
  | lineStatus (w : PortWrite)
  | lineClear (w : PortWrite)
  | pageStatus
  | cancelPage
  | submitPage (w : PortWrite)
  | purgeTraffic
  | setClock (w : PortWrite)
  | readClock
  | channelOpen (w : PortWrite)
  | channelDrain (w : PortWrite)
  | channelClose (w : PortWrite)
  | channelStatus (w : PortWrite)
  | channelClear (w : PortWrite)
  | answerBackStatus (w : PortWrite)
  | answerBackClear (w : PortWrite)
  | monitorEnable
  | monitorDisable
  | monitorStatus
  | settleBegin
  | settleRead
  /-- A first strobe of a pair in 4-bit mode: its direction, CD, and for a write the nibble on D7..D4
  (R160). -/
  | pendingNibble (write cd : Bool) (nibble : BitVec 4)
  | unknownReportKind (c : Chan) (kind slot gen : Byte)
  | markedByteRestart (n : LineNo) (b : Byte)
  deriving DecidableEq, Repr

end Sys2Proof
end

