-- ==== Sys2Proof/Decode.lean ====
section
/-! DEFINITION. The reading of a table word. No row of spec/opcode_table.json has bits ("fields" is empty
in every row): a command reaches the part as a frame of bytes on the Command Port, and an event as a
transfer on a link, so no word spells one (log entry 20). -/

namespace Sys2Proof

/-- The command that a word of `nbits` bits spells by the table's bits: none, for the table gives no row
any. -/
def decodeTableWord (_nbits _w : Nat) : Option Instr := none

end Sys2Proof
end

