-- ==== Sys2Proof/Config.lean ====
section
/-! DEFINITION. The fixed sizes and ends of range of the P418. The manual leaves no value of the part
to the implementation, so there is no constant here without a body: every value below is the
manual's. -/

namespace Sys2Proof.Config

/-- Units of the Record Memory, sixteen bytes each (R1). -/
abbrev units : Nat := 4608
/-- Highest unit address of a pager (R4). -/
abbrev maxAddr : Nat := 4194303
/-- Account records (R26). -/
abbrev accounts : Nat := 1024
/-- Ends of the balance's range (R26). -/
abbrev balanceMin : Int := -8388608
abbrev balanceMax : Int := 8388607
/-- Ends of the period counters' ranges (R26). -/
abbrev max16 : Nat := 65535
abbrev max24 : Nat := 16777215
/-- Live pages of one subscriber (R15). -/
abbrev liveLimit : Nat := 8
/-- Slots of the Pending Page Table (R85). -/
abbrev pageSlots : Nat := 256
/-- Slots of the Retry Wheel (R104). -/
abbrev wheelSlots : Nat := 64
/-- Last office time (R102). -/
abbrev timeMax : Nat := 4294967295
/-- Entries of an air queue, both bands together (R123). -/
abbrev queueLimit : Nat := 64
/-- Tags of an outstanding list (R124). -/
abbrev outstandingLimit : Nat := 4
/-- Bytes of an Intake Line's FIFO (R60). -/
abbrev fifoSize : Nat := 64
/-- The START byte (R169). -/
abbrev start : Byte := 0x7E
/-- Longest text of a page (R80). -/
abbrev textMax : Nat := 240
/-- Bytes of the table space (R40). -/
abbrev tableSpace : Nat := 2048
/-- Largest charge (R46) and largest window (R56). -/
abbrev chargeMax : Nat := 4095
abbrev windowMax : Nat := 1023
/-- Largest filtered activity (R145). -/
abbrev activityMax : Nat := 4095

end Sys2Proof.Config
end

