-- ==== Sys2Proof/Machine/State.lean ====
section
/-! DEFINITION. The state of the P418 as plain data: every record, FIFO, list, counter, mode, flag and
setting the manual gives the part, the bytes it last drove on its outputs, and the queue of the steps
that are waiting to be taken. What follows from these (busy, HOLD, NOTICE, the serve states) is
computed in Machine/Flags.lean and is not stored twice. -/

namespace Sys2Proof.Machine

/-- Four like things, numbered as the lines and inputs are. -/
structure Quad (α : Type) where
  v0 : α
  v1 : α
  v2 : α
  v3 : α
  deriving DecidableEq, Repr

/-- Two like things, one for each air channel. -/
structure Duo (α : Type) where
  a : α
  b : α
  deriving DecidableEq, Repr

/-! ## The subscriber record (R5) -/

/-- R6. -/
inductive SubState where
  | active
  | suspended
  | retiring
  deriving DecidableEq, Repr

/-- R5: the fields of a subscriber record, in the table's order. -/
structure Subscriber where
  addr : Nat
  state : SubState
  cls : Nat
  account : Nat
  profile : Nat
  home : Chan
  homeZone : Nat
  zone : Nat
  lastHeard : Option Nat
  oneWay : Bool
  nextSerial : Nat
  live : Nat
  mark : Bool
  deriving DecidableEq, Repr

/-- R19: the cursor's step mode. -/
inductive StepMode where
  | forward
  | backward
  | hold
  deriving DecidableEq, Repr

/-- R21. -/
inductive MarkMode where
  | off
  | set
  | clear
  deriving DecidableEq, Repr

/-! ## The account record (R26) -/

/-- R27. -/
inductive AcctState where
  | unused
  | opened
  | barred
  deriving DecidableEq, Repr

/-- R26: the fields of an account record; the last nine are the period counters. -/
structure Account where
  state : AcctState
  balance : Int
  cl : Nat
  held : Nat
  overrun : Bool
  refs : Nat
  mark : Bool
  accepted : Nat
  delivered : Nat
  sentOnly : Nat
  expired : Nat
  cancelled : Nat
  aborted : Nat
  attempts : Nat
  charged : Nat
  refunded : Nat
  deriving DecidableEq, Repr

/-- R26: an account after power-on: UNUSED with every field 0. -/
def unusedAccount : Account :=
  { state := .unused, balance := 0, cl := 0, held := 0, overrun := false, refs := 0, mark := false,
    accepted := 0, delivered := 0, sentOnly := 0, expired := 0, cancelled := 0, aborted := 0,
    attempts := 0, charged := 0, refunded := 0 }

/-! ## Pages (Chapter 5) -/

/-- R86: a tag, a slot index and a generation. -/
structure Tag where
  slot : Nat
  gen : Nat
  deriving DecidableEq, Repr

/-- R87. -/
inductive PageState where
  | assembling
  | waiting
  | queued
  | onAir
  | listening
  deriving DecidableEq, Repr

/-- R85: a slot's last-ending record; `none` until a page of the slot has ended. -/
inductive Ending where
  | none
  | delivered
  | sentOnly
  | expired
  | cancelled
  | aborted
  deriving DecidableEq, Repr

/-- R63. -/
inductive Priority where
  | normal
  | urgent
  deriving DecidableEq, Repr

/-- R63. -/
inductive PageKind where
  | numeric
  | text
  deriving DecidableEq, Repr

/-- R78, R82: where a submission came from. -/
inductive Source where
  | line (n : LineNo)
  | port
  deriving DecidableEq, Repr

/-- R50: the figures of the current attempt, absent together until a launch places the entry. -/
structure Attempt where
  mask : ZoneMask
  tier : Nat
  oneWay : Bool
  deriving DecidableEq, Repr

/-- R87: a live page entry. Its tag is the slot it stands in with the slot's generation. -/
structure Entry where
  state : PageState
  addr : Nat
  chan : Chan
  serial : Nat
  priority : Priority
  kind : PageKind
  len : Nat
  blocks : List Nat
  account : Nat
  cls : Nat
  maxAttempts : Nat
  t1 : Nat
  t2 : Nat
  base : Nat
  cap : Nat
  lifetime : Nat
  charge : Nat
  attempts : Nat
  deferrals : Nat
  source : Source
  accepted : Nat
  deadline : Nat
  attempt : Option Attempt
  cancelPending : Bool
  expirePending : Bool
  /-- wheel slot and rounds, present in WAITING and LISTENING -/
  wheel : Option (Nat × Nat)
  deriving DecidableEq, Repr

/-- R85: a slot of the Pending Page Table; it is free when it holds no entry. -/
structure PageSlot where
  gen : Nat
  last : Ending
  entry : Option Entry
  deriving DecidableEq, Repr

/-- R85: a slot after power-on. -/
def freshSlot : PageSlot := { gen := 0, last := .none, entry := .none }

/-- R78: the contents of a submission header. -/
structure Header where
  addr : Nat
  priority : Priority
  kind : PageKind
  len : Nat
  deriving DecidableEq, Repr

/-- The refusal reasons in the order of their codes 1 to 14 (R168). -/
inductive Reason where
  | length
  | foreign
  | blocked
  | unknown
  | suspended
  | retired
  | barred
  | liveLimit
  | tableFull
  | poolFull
  | noCredit
  | badCheck
  | timeout
  | fifoOverrun
  deriving DecidableEq, Repr

/-! ## Directory lookups and the operations that take time (R7, R16) -/

/-- R7: what a lookup is made for. An admission lookup is the outstanding admission request of its
source (R78) and carries the header. -/
inductive LookupUser where
  | admission (src : Source) (hdr : Header)
  | launch (tag : Tag)
  | service (slot : LineNo)
  deriving DecidableEq, Repr

/-- An outstanding lookup; `held` is set when an operation that takes time has kept it from being
answered (R7). -/
structure Lookup where
  user : LookupUser
  held : Bool
  deriving DecidableEq, Repr

/-- The operation that takes time now in progress. -/
inductive Operation where
  /-- R3 -/
  | autoclear
  /-- R10: the record that will stand in the directory at completion -/
  | addition (r : Subscriber)
  /-- R17: the address being removed, and whether a page ending began the removal -/
  | removal (addr : Nat) (byEnding : Bool)
  /-- R2: the partition that will be in force at completion -/
  | rebuild (p : Nat)
  /-- R100: the index of the next slot the purge takes -/
  | purge (next : Nat)
  deriving DecidableEq, Repr

/-! ## Intake Lines (R58) -/

/-- R59. -/
inductive LineState where
  | disabled
  | idle
  | header
  | lookup
  | text
  | check
  | skip
  deriving DecidableEq, Repr

/-- R73: what the receipt slot can hold. -/
inductive Receipt where
  | accepted (tag : Tag) (serial : Nat)
  | refused (reason : Reason) (peer : Nat)
  deriving DecidableEq, Repr

/-- R58: the line record. The byte count is the FIFO's length, and the line's admission request is
its entry among the outstanding lookups. -/
structure Line where
  state : LineState
  fifo : List Byte
  fillHold : Bool
  header : List Byte
  sum : Byte
  remaining : Nat
  bound : Option Tag
  timer : Nat
  /-- the model's own: a counted tick has not yet been taken by the line (R71, R107) -/
  tickDue : Bool
  receipt : Option Receipt
  overflow : Bool
  underflow : Bool
  junk : Nat
  accepted : Nat
  refused : Nat
  deriving DecidableEq, Repr

/-- R58: a line after power-on. -/
def freshLine : Line :=
  { state := .disabled, fifo := [], fillHold := false, header := [], sum := 0, remaining := 0,
    bound := none, timer := 0, tickDue := false, receipt := none, overflow := false,
    underflow := false, junk := 0, accepted := 0, refused := 0 }

/-! ## Wheel, channels, answer-backs, monitor -/

/-- R107: a visit in progress: the slot visited and the tags of its list still to be examined. -/
structure Visit where
  slot : Nat
  todo : List Tag
  deriving DecidableEq, Repr

/-- R122. -/
inductive ChanState where
  | opened
  | draining
  | closed
  deriving DecidableEq, Repr

/-- R121: the channel record. -/
structure Channel where
  state : ChanState
  urgent : List Tag
  normal : List Tag
  outstanding : List Tag
  drained : Bool
  stray : Nat
  deriving DecidableEq, Repr

/-- R121: a channel after power-on. -/
def freshChannel : Channel :=
  { state := .closed, urgent := [], normal := [], outstanding := [], drained := false, stray := 0 }

/-- R134, R171: an answer-back frame with its kind as the byte received. -/
structure AbFrame where
  kind : Byte
  addr : Nat
  serial : Nat
  deriving DecidableEq, Repr

/-- R134: an answer-back slot; it is full when it holds a frame. `rx` holds the bytes of a frame still
arriving at the input (R171). -/
structure AbSlot where
  frame : Option AbFrame
  stray : Nat
  cross : Nat
  dropped : Nat
  rx : List Byte
  deriving DecidableEq, Repr

/-- R134: a slot after power-on. -/
def freshAbSlot : AbSlot := { frame := none, stray := 0, cross := 0, dropped := 0, rx := [] }

/-- R145: the monitor record of one channel. `sampleDue` is the model's own: the sample of a counted tick
has not yet been made (R107, R148). -/
structure Monitor where
  activity : Nat
  level : Nat
  up : Nat
  down : Nat
  residency : Nat
  sampleDue : Bool
  deriving DecidableEq, Repr

/-- R145: a monitor record after power-on. -/
def freshMonitor : Monitor :=
  { activity := 0, level := 0, up := 0, down := 0, residency := 0, sampleDue := false }

/-- R107: what takes a tick beside the Office Clock, without any order to the wheel's visit: the idle timer
of an Intake Line, and the sample of a channel. -/
inductive TickPart where
  | line (n : LineNo)
  | channel (c : Chan)
  deriving DecidableEq, Repr

/-! ## The Command Port (Chapter 11) -/

/-- The commands of the command code table. -/
inductive Cmd where
  | selSubscriber | selAccount | selPage | selClear | portWidth | noticeEnable | noticeClear | noticeRead
  | addSubscriber | readSubscriber | writeField | linkAccount | suspend | resume | retire
  | cursorSet | cursorRead | cursorReadMarked | markMode | partition | memoryStatus
  | openAccount | bar | unbar | adjustBalance | writeLimit | closeAccount | readAccount
  | tablePointer | tableRead | tableWrite
  | lineEnable | lineDisable | lineFlush | lineStatus | lineClear
  | pageStatus | cancelPage | submitPage | purgeTraffic | setClock | readClock
  | channelOpen | channelDrain | channelClose | channelStatus | channelClear
  | answerBackStatus | answerBackClear | monitorEnable | monitorDisable | monitorStatus
  | settleBegin | settleRead
  deriving DecidableEq, Repr

/-- R164: the designator latch, and the designators taken into a frame (R165). -/
structure Latch where
  sub : Option Nat
  acct : Option Nat
  page : Option Tag
  deriving DecidableEq, Repr

/-- R97: what has become of a SUBMIT PAGE frame's admission request. -/
inductive SubmitOutcome where
  | none
  | outstanding
  | admitted (tag : Tag) (serial : Nat)
  | refused (reason : Reason) (peer : Nat)
  deriving DecidableEq, Repr

/-- R161, R165: an incomplete frame: its command, the argument bytes so far, whether it is marked
MISQUALIFIED, and its designators. The text bytes that a SUBMIT PAGE frame keeps while its request is
outstanding are its arguments after the fifth (R97). -/
structure Frame where
  cmd : Cmd
  args : List Byte
  misq : Bool
  desig : Latch
  outcome : SubmitOutcome
  deriving DecidableEq, Repr

/-- R160: a pending nibble with the direction and CD of the strobe that left it; for a read it is the
low nibble of the byte formed. -/
structure Nibble where
  write : Bool
  cd : Bool
  value : BitVec 4
  deriving DecidableEq, Repr

/-- The Command Port's own registers (R160 to R166). The nibble phase is second exactly when a nibble
is pending. -/
structure Port where
  fourBit : Bool
  nibble : Option Nibble
  frame : Option Frame
  result : List Byte
  readIdx : Nat
  ready : Bool
  latch : Latch
  causes : BitVec 8
  enables : BitVec 8
  deriving DecidableEq, Repr

/-- R164: the empty latch. -/
def emptyLatch : Latch := { sub := none, acct := none, page := none }

/-- R160, R163, R164, R166: the port after power-on. -/
def freshPort : Port :=
  { fourBit := false, nibble := none, frame := none, result := [], readIdx := 0, ready := false,
    latch := emptyLatch, causes := 0, enables := 0 }

/-- R41: the staging byte: the first address of a partly written field and its earlier bytes. -/
structure Staging where
  first : Nat
  bytes : List Byte
  deriving DecidableEq, Repr

/-- The bytes last driven on the outputs: the answer on ENCa-ANS (R170), the receipt on INn-RCV (R169),
and D7..D0 at the last read strobe (R160). -/
structure Outputs where
  enc : Duo (List Byte)
  rcv : Quad (List Byte)
  data : Byte
  deriving DecidableEq, Repr

/-- Nothing driven since power-on. DESIGN CHOICE (log entry 12): the manual gives the idle outputs no
value. -/
def freshOutputs : Outputs := { enc := ⟨[], []⟩, rcv := ⟨[], [], [], []⟩, data := 0 }

/-! ## The state -/

/-- The state of the part. Lists of pairs are tables in one canonical form, keys strictly rising: the
text cells list the bytes written (R23), and the other tables list the entries that differ from their
power-on value. -/
structure State where
  /-- operation in progress; busy is set exactly while there is one (R162) -/
  op : Option Operation
  /-- pending removals, oldest first (R16) -/
  pendingRemovals : List Nat
  /-- outstanding lookups in the order of their arrival (R7) -/
  lookups : List Lookup
  /-- R1 -/
  partition : Nat
  /-- the directory: the record in unit i is the i-th (R1, R4) -/
  directory : List Subscriber
  cursorKey : Int
  cursorMode : StepMode
  markMode : MarkMode
  /-- bytes of the Text Pool's units, at address 16 × unit + position (R1, R23) -/
  text : List Host.Cell
  /-- free blocks, top of the stack first (R23) -/
  freeBlocks : List Nat
  poolHold : Bool
  accounts : List (Nat × Account)
  /-- settings in force, each at the address of its first byte (R172) -/
  settings : List (Nat × Nat)
  tablePtr : Nat
  staging : Option Staging
  lines : Quad Line
  slots : List (Nat × PageSlot)
  /-- office time (R102) -/
  time : Nat
  head : Nat
  wheel : List (Nat × List Tag)
  visits : List Visit
  chans : Duo Channel
  ab : Quad AbSlot
  servicePtr : LineNo
  monitorOn : Bool
  mons : Duo Monitor
  settleCursor : Nat
  port : Port
  out : Outputs
  /-- the model's own, and like `pending` an input: for each tick to come, the parts that will take it after
  the step of TICK, at a row of their own; none for the ticks past its end (R71, R107, R148) -/
  lateTicks : List (List TickPart)
  /-- the steps waiting to be taken, first in, first out -/
  pending : List Instr
  deriving DecidableEq, Repr

/-- R3, R26, R58, R85, R121, R134, R145, R154, R160 to R166: the part after a power-on reset, its
autoclear complete (log entry 1), with no step waiting. -/
def State.reset : State :=
  { op := none, pendingRemovals := [], lookups := [], partition := 0, directory := [],
    cursorKey := 0, cursorMode := .forward, markMode := .off,
    text := [], freeBlocks := List.range 512, poolHold := false,
    accounts := [], settings := [], tablePtr := 0, staging := none,
    lines := ⟨freshLine, freshLine, freshLine, freshLine⟩,
    slots := [], time := 0, head := 0, wheel := [], visits := [],
    chans := ⟨freshChannel, freshChannel⟩,
    ab := ⟨freshAbSlot, freshAbSlot, freshAbSlot, freshAbSlot⟩, servicePtr := 3,
    monitorOn := true, mons := ⟨freshMonitor, freshMonitor⟩, settleCursor := 0,
    port := freshPort, out := freshOutputs, lateTicks := [], pending := [] }

/-- What stops the part. The manual names no such event; both faults answer an access to text that
does not exist, which no run from reset makes (log entry 11). -/
inductive Fault where
  /-- A text byte is written at a position that none of the entry's blocks covers, or whose unit is not
  one of the 4,608. Raised by TEXT_BYTE, ARGUMENT_BYTE, SUBMIT_PAGE and ADMISSION. Safe. -/
  | noTextUnit
  /-- A PAGE answer would read a text byte that nothing has written, or that no block covers. Raised by
  PULL. Safe. -/
  | unwrittenText
  deriving DecidableEq, Repr

/-- Reasons for which a step has no meaning in the model. -/
inductive Refusal where
  /-- The row has no meaning yet; raised by `exec` only. Safe. No row is refused. -/
  | notModelled (mnemonic : String)
  deriving DecidableEq, Repr

end Sys2Proof.Machine
end

