-- ==== Sys2Proof/Machine/Ops.lean ====
section
/-! DEFINITION. Named operations over the tables, records and text cells of the state, each with one
reader and one writer, and the operations on what more than one block shares: the notice causes, the
lookups, and the beginning of an operation that takes time. -/

namespace Sys2Proof.Machine

/-! ## Records by line number and by channel -/

/-- The record of line or input `n`. -/
def Quad.get {α : Type} (q : Quad α) (n : LineNo) : α :=
  match n with
  | 0 => q.v0
  | 1 => q.v1
  | 2 => q.v2
  | 3 => q.v3

/-- The four records with that of `n` replaced. -/
def Quad.put {α : Type} (q : Quad α) (n : LineNo) (v : α) : Quad α :=
  match n with
  | 0 => { q with v0 := v }
  | 1 => { q with v1 := v }
  | 2 => { q with v2 := v }
  | 3 => { q with v3 := v }

/-- The record of channel `c`. -/
def Duo.get {α : Type} (d : Duo α) (c : Chan) : α :=
  match c with
  | .A => d.a
  | .B => d.b

/-- The two records with that of `c` replaced. -/
def Duo.put {α : Type} (d : Duo α) (c : Chan) (v : α) : Duo α :=
  match c with
  | .A => { d with a := v }
  | .B => { d with b := v }

/-! ## Tables: keys strictly rising, no entry equal to the power-on value -/

/-- What table `t` holds at `k`; `d` gives the value of an unlisted key. -/
def tblGet {α : Type} (d : Nat → α) (t : List (Nat × α)) (k : Nat) : α :=
  match t with
  | [] => d k
  | (j, v) :: rest => if j = k then v else tblGet d rest k

/-- `t` with the entry of `k` listed as `v`, in its place by key. -/
def tblInsert {α : Type} (t : List (Nat × α)) (k : Nat) (v : α) : List (Nat × α) :=
  match t with
  | [] => [(k, v)]
  | (j, w) :: rest =>
    if k < j then (k, v) :: (j, w) :: rest
    else if j = k then (k, v) :: rest
    else (j, w) :: tblInsert rest k v

/-- `t` with `v` at `k`; a value equal to the unlisted one removes the entry. -/
def tblSet {α : Type} [DecidableEq α] (d : Nat → α) (t : List (Nat × α)) (k : Nat) (v : α) :
    List (Nat × α) :=
  if v = d k then t.filter (fun p => p.1 ≠ k) else tblInsert t k v

/-! ## Text cells (R1, R23) -/

/-- The byte at text address `a`, if one has been written. -/
def cellRead (m : List Host.Cell) (a : Nat) : Option Byte :=
  match m with
  | [] => none
  | (j, v) :: rest => if j = a then some v else cellRead rest a

/-- The canonical form of the text cells: addresses strictly rising. Since a byte that nothing has
written has no value, no entry equals what an unlisted address reads as. -/
abbrev Memory.wf (m : List Host.Cell) : Prop := m.Pairwise (fun p q => p.1 < q.1)

/-- R1: capacity of the directory under partition `p`. -/
def dirCapacity (p : Nat) : Nat := 4096 - 512 * p

/-- R1: blocks of the Text Pool under partition `p`. -/
def poolCapacity (p : Nat) : Nat := 512 + 512 * p

/-- R68: the text address of character `k` of a page with blocks `bs` under partition `p`: position
k mod 16 of block number k div 16, which stands in unit C(p) + block. None where no block of the
page, or no unit of the Record Memory, covers it. -/
def textAddress (p : Nat) (bs : List Nat) (k : Nat) : Option Nat :=
  match bs[k / 16]? with
  | none => none
  | some b =>
    if dirCapacity p + b < Config.units then some (16 * (dirCapacity p + b) + k % 16) else none

/-- R68: character `k` of the page with blocks `bs` takes the value `b`. -/
def State.writeText (s : State) (bs : List Nat) (k : Nat) (b : Byte) : Option State :=
  match textAddress s.partition bs k with
  | none => none
  | some a => some { s with text := tblInsert s.text a b }

/-- Characters `k`, `k + 1`, … of the page with blocks `bs` take the bytes `cs` (R97). -/
def State.writeTexts (s : State) (bs : List Nat) (k : Nat) (cs : List Byte) : Option State :=
  match cs with
  | [] => some s
  | c :: rest =>
    match s.writeText bs k c with
    | none => none
    | some s' => s'.writeTexts bs (k + 1) rest

/-- Character `k` of the page with blocks `bs`, if it has been written. -/
def State.readText (s : State) (bs : List Nat) (k : Nat) : Option Byte :=
  match textAddress s.partition bs k with
  | none => none
  | some a => cellRead s.text a

/-- R125: the first `n` characters of the page with blocks `bs`, in text order. -/
def State.readTexts (s : State) (bs : List Nat) (n : Nat) : Option (List Byte) :=
  (List.range n).mapM (fun k => s.readText bs k)

/-! ## Records of the state -/

def State.line (s : State) (n : LineNo) : Line := s.lines.get n
def State.setLine (s : State) (n : LineNo) (l : Line) : State := { s with lines := s.lines.put n l }

def State.chan (s : State) (c : Chan) : Channel := s.chans.get c
def State.setChan (s : State) (c : Chan) (v : Channel) : State := { s with chans := s.chans.put c v }

def State.mon (s : State) (c : Chan) : Monitor := s.mons.get c
def State.setMon (s : State) (c : Chan) (v : Monitor) : State := { s with mons := s.mons.put c v }

def State.abSlot (s : State) (n : LineNo) : AbSlot := s.ab.get n
def State.setAbSlot (s : State) (n : LineNo) (v : AbSlot) : State := { s with ab := s.ab.put n v }

def State.acct (s : State) (i : Nat) : Account := tblGet (fun _ => unusedAccount) s.accounts i
def State.setAcct (s : State) (i : Nat) (a : Account) : State :=
  { s with accounts := tblSet (fun _ => unusedAccount) s.accounts i a }

def State.slot (s : State) (i : Nat) : PageSlot := tblGet (fun _ => freshSlot) s.slots i
def State.setSlot (s : State) (i : Nat) (v : PageSlot) : State :=
  { s with slots := tblSet (fun _ => freshSlot) s.slots i v }

def State.wheelList (s : State) (w : Nat) : List Tag := tblGet (fun _ => []) s.wheel w
def State.setWheelList (s : State) (w : Nat) (ts : List Tag) : State :=
  { s with wheel := tblSet (fun _ => []) s.wheel w ts }

def State.setEnc (s : State) (c : Chan) (bs : List Byte) : State :=
  { s with out := { s.out with enc := s.out.enc.put c bs } }
def State.setRcv (s : State) (n : LineNo) (bs : List Byte) : State :=
  { s with out := { s.out with rcv := s.out.rcv.put n bs } }

/-- R4, R7: the record whose unit address is `a`. -/
def State.record (s : State) (a : Nat) : Option Subscriber := s.directory.find? (fun r => r.addr = a)

/-- The directory with the record at unit address `a` changed by `f`; order and count stay. -/
def State.updateRecord (s : State) (a : Nat) (f : Subscriber → Subscriber) : State :=
  { s with directory := s.directory.map (fun r => if r.addr = a then f r else r) }

/-- R86: the live entry that tag `t` names. -/
def State.entry (s : State) (t : Tag) : Option Entry :=
  if (s.slot t.slot).gen = t.gen then (s.slot t.slot).entry else none

/-- The live entry of slot `i` becomes `e`. -/
def State.setEntry (s : State) (i : Nat) (e : Entry) : State :=
  s.setSlot i { s.slot i with entry := some e }

/-- R86: tag `t` names an ended page: its slot is free with the tag's generation and an ending. -/
def State.tagEnded (s : State) (t : Tag) : Bool :=
  (s.slot t.slot).gen = t.gen && (s.slot t.slot).entry.isNone && (s.slot t.slot).last ≠ .none

/-- A counter that saturates at `m` (00_scope.md, COUNTERS). -/
def satAdd (m v d : Nat) : Nat := min m (v + d)

/-! ## Notice causes (R166) -/

/-- The seven causes with their bit numbers. -/
inductive Cause where
  | level | overrun | poolHold | retireDone | drained | airFault | done
  deriving DecidableEq, Repr

/-- R166: the bit of a cause. -/
def causeBit (c : Cause) : BitVec 8 :=
  match c with
  | .level => 0x01
  | .overrun => 0x02
  | .poolHold => 0x04
  | .retireDone => 0x08
  | .drained => 0x10
  | .airFault => 0x20
  | .done => 0x40

/-- R166: raising a cause sets it, whatever its enable; a cause already set stays set. -/
def State.raise (s : State) (c : Cause) : State :=
  { s with port := { s.port with causes := s.port.causes ||| causeBit c } }

/-! ## Lookups and operations that take time (R7, R16) -/

/-- R162: busy is set while an operation that takes time is in progress. -/
def State.busy (s : State) : Bool := s.op.isSome

/-- R7: lookups are answered when no operation that takes time is in progress and no removal is
pending. -/
def State.lookupsOpen (s : State) : Bool := s.op.isNone && s.pendingRemovals.isEmpty

/-- R7: a lookup arrives; it is held when lookups are not being answered. -/
def State.askLookup (s : State) (u : LookupUser) : State :=
  { s with lookups := s.lookups ++ [{ user := u, held := !s.lookupsOpen }] }

/-- A request withdrawn or a launch dropped leaves the lookups (R72, R78, R91, R110). -/
def State.dropLookup (s : State) (p : LookupUser → Bool) : State :=
  { s with lookups := s.lookups.filter (fun l => !p l.user) }

/-- R110: a lookup is the launch of tag `t`. -/
def isLaunchOf (t : Tag) (u : LookupUser) : Bool :=
  match u with
  | .launch t' => t' = t
  | _ => false

/-- R78: a lookup is the admission request of source `src`. -/
def isRequestOf (src : Source) (u : LookupUser) : Bool :=
  match u with
  | .admission src' _ => src' = src
  | _ => false

/-- R137: a lookup is the service lookup of answer-back slot `n`. -/
def isServiceOf (n : LineNo) (u : LookupUser) : Bool :=
  match u with
  | .service n' => n' = n
  | _ => false

/-- The launch of `t` has been asked for and not made (R108). -/
def State.launchAsked (s : State) (t : Tag) : Bool := s.lookups.any (fun l => isLaunchOf t l.user)

/-- The oldest lookup, when lookups are being answered (R7). -/
def State.answerable (s : State) : Option LookupUser :=
  if s.lookupsOpen then s.lookups.head?.map (fun l => l.user) else none

/-- The oldest lookup has been answered. -/
def State.popLookup (s : State) : State := { s with lookups := s.lookups.tail }

/-- An operation that takes time begins: busy is set, and a lookup not yet answered is held (R7). -/
def State.beginOp (s : State) (o : Operation) : State :=
  { s with op := some o, lookups := s.lookups.map (fun l => { l with held := true }) }

/-- R15, R16: the removal of the record at `a`, brought to live count 0 by a page ending, begins, or
becomes pending while an operation that takes time is in progress. -/
def State.endingRemoval (s : State) (a : Nat) : State :=
  match s.op with
  | none => s.beginOp (.removal a true)
  | some _ =>
    if a ∈ s.pendingRemovals then s else { s with pendingRemovals := s.pendingRemovals ++ [a] }

/-- R16: an operation that takes time completes and raises DONE; then the oldest pending removal begins
and busy stays set, or busy is cleared. -/
def State.completeOp (s : State) : State :=
  match s.pendingRemovals with
  | [] => { s.raise .done with op := none }
  | a :: rest => { s.raise .done with op := some (.removal a true), pendingRemovals := rest }

end Sys2Proof.Machine
end

