-- ==== Sys2Proof/Machine/Operands.lean ====
section
/-! DEFINITION. The forms of arguments and results: bytes in order, signed and absent items, the codes
of the named values (R168), the submission header (R169), and the receipt and answer bytes (R169,
R170). -/

namespace Sys2Proof.Machine

/-! ## Numbers as bytes, most significant first (R168) -/

/-- The number whose bytes are `bs`. -/
def beValue (bs : List Byte) : Nat := bs.foldl (fun acc b => 256 * acc + b.toNat) 0

/-- `v` in `w` bytes. -/
def beBytes (w v : Nat) : List Byte :=
  match w with
  | 0 => []
  | w + 1 => BitVec.ofNat 8 (v / 256 ^ w) :: beBytes w v

/-- One byte. -/
def byteOf (v : Nat) : Byte := BitVec.ofNat 8 v

/-- R168: a flag. -/
def flagByte (b : Bool) : Byte := if b then 1 else 0

/-- R168: an absent item of `w` bytes. -/
def absentBytes (w : Nat) : List Byte := List.replicate w 0xFF

/-- R168: a three-byte two's complement item. -/
def signedBytes (v : Int) : List Byte := beBytes 3 (v % 16777216).toNat

/-- R168: the value of a three-byte two's complement argument. -/
def signedValue (v : Nat) : Int := if v < 8388608 then v else (v : Int) - 16777216

/-- An item that may be absent. -/
def optBytes (w : Nat) (v : Option Nat) : List Byte :=
  match v with
  | none => absentBytes w
  | some n => beBytes w n

/-- R168: a tag. -/
def tagBytes (t : Tag) : List Byte := [byteOf t.slot, byteOf t.gen]

/-- The tag of a slot byte and a generation byte. -/
def tagOf (slot gen : Byte) : Tag := { slot := slot.toNat, gen := gen.toNat }

/-! ## Result codes and named values (R168) -/

/-- R168: the result codes. -/
inductive Code where
  | ok | busy | noRecord | duplicate | full | state | misqualified | range | referenced | staleTag
  | ended | abandoned
  deriving DecidableEq, Repr

def codeByte (c : Code) : Byte :=
  match c with
  | .ok => 0x00
  | .busy => 0x01
  | .noRecord => 0x02
  | .duplicate => 0x03
  | .full => 0x04
  | .state => 0x05
  | .misqualified => 0x06
  | .range => 0x07
  | .referenced => 0x08
  | .staleTag => 0x09
  | .ended => 0x0A
  | .abandoned => 0x0B

def reasonCode (r : Reason) : Nat :=
  match r with
  | .length => 1
  | .foreign => 2
  | .blocked => 3
  | .unknown => 4
  | .suspended => 5
  | .retired => 6
  | .barred => 7
  | .liveLimit => 8
  | .tableFull => 9
  | .poolFull => 10
  | .noCredit => 11
  | .badCheck => 12
  | .timeout => 13
  | .fifoOverrun => 14

def chanByte (c : Chan) : Byte :=
  match c with
  | .A => 0
  | .B => 1

def subStateByte (v : SubState) : Byte :=
  match v with
  | .active => 0
  | .suspended => 1
  | .retiring => 2

def acctStateByte (v : AcctState) : Byte :=
  match v with
  | .unused => 0
  | .opened => 1
  | .barred => 2

def pageStateByte (v : PageState) : Byte :=
  match v with
  | .assembling => 0
  | .waiting => 1
  | .queued => 2
  | .onAir => 3
  | .listening => 4

def endingByte (v : Ending) : Byte :=
  match v with
  | .none => 0
  | .delivered => 1
  | .sentOnly => 2
  | .expired => 3
  | .cancelled => 4
  | .aborted => 5

def priorityByte (v : Priority) : Byte :=
  match v with
  | .normal => 0
  | .urgent => 1

def kindByte (v : PageKind) : Byte :=
  match v with
  | .numeric => 0
  | .text => 1

def sourceByte (v : Source) : Byte :=
  match v with
  | .line n => byteOf n.val
  | .port => 4

def lineStateByte (v : LineState) : Byte :=
  match v with
  | .disabled => 0
  | .idle => 1
  | .header => 2
  | .lookup => 3
  | .text => 4
  | .check => 5
  | .skip => 6

def chanStateByte (v : ChanState) : Byte :=
  match v with
  | .opened => 0
  | .draining => 1
  | .closed => 2

def stepModeByte (v : StepMode) : Byte :=
  match v with
  | .forward => 0
  | .backward => 1
  | .hold => 2

def markModeByte (v : MarkMode) : Byte :=
  match v with
  | .off => 0
  | .set => 1
  | .clear => 2

/-- A channel argument or setting: codes A, B. -/
def chanOfCode (v : Nat) : Option Chan :=
  match v with
  | 0 => some .A
  | 1 => some .B
  | _ => none

def stepModeOfCode (v : Nat) : Option StepMode :=
  match v with
  | 0 => some .forward
  | 1 => some .backward
  | 2 => some .hold
  | _ => none

def markModeOfCode (v : Nat) : Option MarkMode :=
  match v with
  | 0 => some .off
  | 1 => some .set
  | 2 => some .clear
  | _ => none

/-- A line or slot argument, 0..3. -/
def lineOfCode (v : Nat) : Option LineNo := if h : v < 4 then some ⟨v, h⟩ else none

/-! ## Arguments of a frame -/

/-- Argument byte `i`. -/
def Frame.byte (f : Frame) (i : Nat) : Byte := f.args.getD i 0

/-- Argument byte `i` as a number. -/
def Frame.arg (f : Frame) (i : Nat) : Nat := (f.byte i).toNat

/-- The number in the `w` argument bytes from byte `i`. -/
def Frame.num (f : Frame) (i w : Nat) : Nat := beValue ((f.args.drop i).take w)

/-- The designators taken into the frame (R165). -/
def Frame.sub (f : Frame) : Nat := f.desig.sub.getD 0
def Frame.acct (f : Frame) : Nat := f.desig.acct.getD 0
def Frame.page (f : Frame) : Tag := f.desig.page.getD { slot := 0, gen := 0 }

/-! ## Link formats (R169, R170) -/

/-- R169: the 22-bit unit address in the bytes `b1`, `b2`, `b3`; bits 6 and 7 of the first are
ignored. -/
def addrOf (b1 b2 b3 : Byte) : Nat := beValue [b1 &&& 0x3F, b2, b3]

/-- R169: the contents of the five header bytes. -/
def headerOf (bs : List Byte) : Header :=
  { addr := addrOf (bs.getD 1 0) (bs.getD 2 0) (bs.getD 3 0)
    priority := if (bs.getD 0 0).getLsbD 0 then .urgent else .normal
    kind := if (bs.getD 0 0).getLsbD 1 then .text else .numeric
    len := (bs.getD 4 0).toNat }

/-- R169: the four bytes of a fetch's answer. -/
def receiptBytes (r : Option Receipt) : List Byte :=
  match r with
  | none => [0x00, 0, 0, 0]
  | some (.accepted t serial) => [0x01, byteOf t.slot, byteOf t.gen, byteOf serial]
  | some (.refused reason peer) => [0x02, byteOf (reasonCode reason), byteOf peer, 0]

/-- R170: the answers to a pull. -/
inductive Answer where
  | stalled | window | idle | drained
  deriving DecidableEq, Repr

def answerBytes (a : Answer) : List Byte :=
  match a with
  | .stalled => [0x01]
  | .window => [0x02]
  | .idle => [0x03]
  | .drained => [0x04]

/-- R168: a zone mask, zone 15 in the top bit of the first byte. -/
def maskBytes (m : ZoneMask) : List Byte := beBytes 2 m.toNat

/-- R125, R170: the bytes of a PAGE answer for entry `e` of tag `t` with the characters `cs`. -/
def pageBytes (t : Tag) (e : Entry) (cs : List Byte) : List Byte :=
  [0x00] ++ tagBytes t ++ beBytes 3 e.addr ++ [byteOf e.serial, kindByte e.kind]
    ++ maskBytes ((e.attempt.map (fun a => a.mask)).getD 0) ++ [byteOf e.len] ++ cs

/-! ## Records in results (R168) -/

/-- R5, R8: every field of a subscriber record, in the order of R5. -/
def subscriberBytes (r : Subscriber) : List Byte :=
  beBytes 3 r.addr ++ [subStateByte r.state, byteOf r.cls] ++ beBytes 2 r.account
    ++ [byteOf r.profile, chanByte r.home, byteOf r.homeZone, byteOf r.zone]
    ++ optBytes 4 r.lastHeard
    ++ [flagByte r.oneWay, byteOf r.nextSerial, byteOf r.live, flagByte r.mark]

/-- R168: the no-record form of the record part, as long as a record. -/
def noRecordBytes : List Byte := absentBytes 19

/-- R26: the nine period counters. -/
def counterBytes (a : Account) : List Byte :=
  beBytes 2 a.accepted ++ beBytes 2 a.delivered ++ beBytes 2 a.sentOnly ++ beBytes 2 a.expired
    ++ beBytes 2 a.cancelled ++ beBytes 2 a.aborted ++ beBytes 3 a.attempts ++ beBytes 3 a.charged
    ++ beBytes 3 a.refunded

/-- R33: every field of an account, in the order of R33. -/
def accountBytes (a : Account) : List Byte :=
  [acctStateByte a.state] ++ signedBytes a.balance ++ beBytes 2 a.cl ++ beBytes 3 a.held
    ++ [flagByte a.overrun] ++ beBytes 2 a.refs ++ [flagByte a.mark] ++ counterBytes a

/-- R32: the final figures of a closed account. -/
def finalBytes (a : Account) : List Byte :=
  [acctStateByte a.state] ++ signedBytes a.balance ++ beBytes 2 a.cl ++ [flagByte a.overrun]
    ++ counterBytes a

/-- R156: the figures of a settlement reading. -/
def settleBytes (i : Nat) (a : Account) : List Byte :=
  beBytes 2 i ++ [acctStateByte a.state] ++ signedBytes a.balance ++ beBytes 3 a.held
    ++ beBytes 2 a.cl ++ [flagByte a.overrun] ++ counterBytes a

/-- R157: the account part of a settlement reading that finds no account is all 0. -/
def noSettleBytes : List Byte := List.replicate 33 0

end Sys2Proof.Machine
end

