-- ==== Sys2Proof/Machine/Settings.lean ====
section
/-! DEFINITION. The Setting Tables: the address map (R172) with the width, range and power-on value of
every field, and the settings as they are in force. A setting is named by the address of its first
byte. -/

namespace Sys2Proof.Machine

/-- A field of the Setting Tables: the address of its first byte, its width in bytes, the ends of its
range, and its power-on value. -/
structure Field where
  first : Nat
  width : Nat
  lo : Nat
  hi : Nat
  dflt : Nat
  deriving DecidableEq, Repr

/-- R38: the field at byte `i` of a tariff row. -/
def tariffField (i first : Nat) : Option Field :=
  match i with
  | 0 => some { first, width := 1, lo := 0, hi := 255, dflt := 10 }
  | 1 => some { first, width := 1, lo := 1, hi := 4, dflt := 2 }
  | 2 => some { first, width := 1, lo := 0, hi := 63, dflt := 2 }
  | 3 => some { first, width := 1, lo := 0, hi := 255, dflt := 32 }
  | 4 => some { first, width := 1, lo := 0, hi := 63, dflt := 2 }
  | 5 => some { first, width := 1, lo := 0, hi := 8, dflt := 4 }
  | _ => none

/-- R119: the field at byte `i` of the retry profile that begins at `base`. -/
def profileField (i base : Nat) : Option Field :=
  match i with
  | 0 => some { first := base, width := 1, lo := 1, hi := 15, dflt := 4 }
  | 1 => some { first := base + 1, width := 1, lo := 1, hi := 15, dflt := 2 }
  | 2 => some { first := base + 2, width := 1, lo := 1, hi := 15, dflt := 3 }
  | 3 | 4 => some { first := base + 3, width := 2, lo := 1, hi := 1023, dflt := 30 }
  | 5 | 6 => some { first := base + 5, width := 2, lo := 1, hi := 1023, dflt := 240 }
  | 7 | 8 => some { first := base + 7, width := 2, lo := 60, hi := 65535, dflt := 1800 }
  | _ => none

/-- R81: the field at byte `i` of the routing range that begins at `base`. -/
def routingField (i base : Nat) : Option Field :=
  match i with
  | 0 => some { first := base, width := 1, lo := 0, hi := 1, dflt := 0 }
  | 1 | 2 | 3 => some { first := base + 1, width := 3, lo := 0, hi := 4194303, dflt := 0 }
  | 4 | 5 | 6 => some { first := base + 4, width := 3, lo := 0, hi := 4194303, dflt := 0 }
  | 7 => some { first := base + 7, width := 1, lo := 0, hi := 2, dflt := 0 }
  | 8 => some { first := base + 8, width := 1, lo := 0, hi := 15, dflt := 0 }
  | _ => none

/-- The two-byte field whose pair of addresses holds `a`, in a run of two-byte fields that begins at an
even address. -/
def wordField (a lo hi dflt : Nat) : Option Field :=
  some { first := a - a % 2, width := 2, lo, hi, dflt }

/-- R172: the field that holds table address `a`; none where the address is not assigned. -/
def fieldAt (a : Nat) : Option Field :=
  if a < 0x30 then tariffField (a % 6) a
  else if a < 0x34 then
    some { first := a, width := 1, lo := 16, hi := 64,
           dflt := if a = 0x32 then 20 else if a = 0x33 then 24 else 16 }
  else if a < 0x36 then wordField a 0 2048 16
  else if a < 0x38 then wordField a 0 2048 32
  else if a < 0x40 then none
  else if a < 0xC0 then profileField ((a - 0x40) % 16) (a - (a - 0x40) % 16)
  else if a < 0x140 then routingField ((a - 0xC0) % 16) (a - (a - 0xC0) % 16)
  else if a = 0x140 then some { first := a, width := 1, lo := 0, hi := 2, dflt := 0 }
  else if a = 0x141 then some { first := a, width := 1, lo := 0, hi := 15, dflt := 0 }
  else if a < 0x150 then none
  else if a < 0x158 then
    if a % 2 = 0 then some { first := a, width := 1, lo := 0, hi := 1, dflt := (a - 0x150) / 4 }
    else some { first := a, width := 1, lo := 0, hi := 15, dflt := (a - 0x150) / 2 % 2 }
  else if a < 0x160 then none
  else if a < 0x166 then wordField a 0 4095 (1024 * ((a - 0x160) / 2 + 1))
  else if a < 0x168 then wordField a 0 4095 768
  else if a < 0x16A then wordField a 0 4095 1536
  else if a < 0x16C then wordField a 0 4095 2560
  else if a = 0x16C then some { first := a, width := 1, lo := 1, hi := 15, dflt := 3 }
  else if a = 0x16D then some { first := a, width := 1, lo := 1, hi := 15, dflt := 10 }
  else if a < 0x171 then some { first := a, width := 1, lo := 0, hi := 1, dflt := 1 }
  else if a = 0x171 then some { first := a, width := 1, lo := 0, hi := 3, dflt := 0 }
  else if a < 0x180 then none
  else if a < 0x188 then
    if a % 2 = 0 then some { first := a, width := 1, lo := 8, hi := 60, dflt := 48 }
    else some { first := a, width := 1, lo := 1, hi := 60, dflt := 5 }
  else if a < 0x200 then none
  else if a < 0x220 then wordField a 0 65535 0
  else if a < 0x240 then none
  else if a < 0x260 then wordField a 0 65535 0
  else if a < 0x280 then none
  else if a < 0x284 then wordField a 0 65535 65535
  else none

/-- The power-on value of the field whose first byte stands at `a`. -/
def settingDefault (a : Nat) : Nat :=
  match fieldAt a with
  | some f => f.dflt
  | none => 0

/-- The setting whose first byte stands at `a`, as it is in force. -/
def State.setting (s : State) (a : Nat) : Nat := tblGet settingDefault s.settings a

/-- The setting at `a` takes the value `v`, already clamped. -/
def State.setSetting (s : State) (a v : Nat) : State :=
  { s with settings := tblSet settingDefault s.settings a v }

/-- 00_scope.md, SETTINGS: a value outside the range is clamped to the nearest end. -/
def Field.clamp (f : Field) (v : Nat) : Nat := max f.lo (min f.hi v)

/-- R40: the byte that a read of table address `a` returns: the field in force; 0 where the address is
not assigned. -/
def State.tableByte (s : State) (a : Nat) : Byte :=
  match fieldAt a with
  | none => 0
  | some f => (beBytes f.width (s.setting f.first)).getD (a - f.first) 0

/-! ## The settings by name (R172) -/

/-- R38: field `i` (B, U, P, F, S, R as 0..5) of tariff row `r`. -/
def tariffAddr (r i : Nat) : Nat := 6 * r + i
def State.tariffB (s : State) (r : Nat) : Nat := s.setting (tariffAddr r 0)
def State.tariffU (s : State) (r : Nat) : Nat := s.setting (tariffAddr r 1)
def State.tariffP (s : State) (r : Nat) : Nat := s.setting (tariffAddr r 2)
def State.tariffF (s : State) (r : Nat) : Nat := s.setting (tariffAddr r 3)
def State.tariffS (s : State) (r : Nat) : Nat := s.setting (tariffAddr r 4)
def State.tariffR (s : State) (r : Nat) : Nat := s.setting (tariffAddr r 5)

/-- R39: the multiplier of load level `l`. -/
def State.m16 (s : State) (l : Nat) : Nat := s.setting (0x30 + l)

/-- R24. -/
def lowAddr : Nat := 0x34
def highAddr : Nat := 0x36
def State.lowMark (s : State) : Nat := s.setting lowAddr
def State.highMark (s : State) : Nat := s.setting highAddr

/-- R119: byte `i` of retry profile `p`. -/
def profileAddr (p i : Nat) : Nat := 0x40 + 16 * p + i

/-- R81: byte `i` of routing range `r`. -/
def routingAddr (r i : Nat) : Nat := 0xC0 + 16 * r + i

/-- R138: the receiver zone entry of input `n`. -/
def State.receiverChan (s : State) (n : LineNo) : Chan :=
  if s.setting (0x150 + 2 * n.val) = 0 then .A else .B
def State.receiverZone (s : State) (n : LineNo) : Nat := s.setting (0x151 + 2 * n.val)

/-- R146: thresholds, hysteresis counts, enables and boot level. -/
def State.upThreshold (s : State) (l : Nat) : Nat := s.setting (0x160 + 2 * l)
def State.downThreshold (s : State) (l : Nat) : Nat := s.setting (0x164 + 2 * l)
def State.hup (s : State) : Nat := s.setting 0x16C
def State.hdown (s : State) : Nat := s.setting 0x16D
def enableAddr (l : Nat) : Nat := 0x16D + l
def bootAddr : Nat := 0x171
def State.bootLevel (s : State) : Nat := s.setting bootAddr

/-- R146: level `l` is enabled; level 0 always is. -/
def State.levelEnabled (s : State) (l : Nat) : Bool := l = 0 || s.setting (enableAddr l) = 1

/-- R76: FIFO threshold and idle timeout of line `n`. -/
def State.threshold (s : State) (n : LineNo) : Nat := s.setting (0x180 + 2 * n.val)
def State.idleLimit (s : State) (n : LineNo) : Nat := s.setting (0x181 + 2 * n.val)

/-- R120: the neighbour mask of zone `z` of channel `c`, and the wide mask of channel `c`. -/
def State.neighbourMask (s : State) (c : Chan) (z : Nat) : ZoneMask :=
  match c with
  | .A => BitVec.ofNat 16 (s.setting (0x200 + 2 * z))
  | .B => BitVec.ofNat 16 (s.setting (0x240 + 2 * z))
def State.wideMask (s : State) (c : Chan) : ZoneMask :=
  match c with
  | .A => BitVec.ofNat 16 (s.setting 0x280)
  | .B => BitVec.ofNat 16 (s.setting 0x282)

end Sys2Proof.Machine
end

