-- ==== Sys2Proof/Machine/Flags.lean ====
section
/-! DEFINITION. Every flag that is computed from the rest of the state: the overrun flag, the watermark
hold, the fill hold, the marks, and the outputs HOLD, NOTICE and the status byte. -/

namespace Sys2Proof.Machine

/-- R35: the overrun flag of an account with this balance and CL. -/
def overrunOf (balance : Int) (cl : Nat) : Bool := balance < -(cl : Int)

/-- R24: the watermark hold recomputed for `free` free blocks. -/
def poolHoldOf (free low high : Nat) (hold : Bool) : Bool :=
  if free < low then true else if high ≤ free then false else hold

/-- R24: the hold is recomputed; POOL_HOLD is raised when it goes up. -/
def State.recomputePool (s : State) : State :=
  let hold := poolHoldOf s.freeBlocks.length s.lowMark s.highMark s.poolHold
  if hold && !s.poolHold then { s.raise .poolHold with poolHold := hold }
  else { s with poolHold := hold }

/-- R62: the fill hold recomputed for `count` bytes and threshold `h`. -/
def fillHoldOf (count h : Nat) (hold : Bool) : Bool :=
  if h ≤ count then true else if count ≤ h - 8 then false else hold

/-- R62: a line with its fill hold recomputed against threshold `h`. -/
def Line.refill (l : Line) (h : Nat) : Line := { l with fillHold := fillHoldOf l.fifo.length h l.fillHold }

/-- R21: the mark that a host operation leaves on a record, by mark mode. -/
def hostMark (m : MarkMode) (mark : Bool) : Bool :=
  match m with
  | .off => mark
  | .set => true
  | .clear => false

/-- R21, R139: the mark that a roaming update leaves on a record, by mark mode. -/
def roamMark (m : MarkMode) (mark : Bool) : Bool :=
  match m with
  | .set => true
  | .off | .clear => mark

/-- R64: the line is IDLE with a START at the head of its FIFO. -/
def Line.startAtHead (l : Line) : Bool := l.state = .idle && l.fifo.head? = some Config.start

/-- R64: that START is held for the full receipt slot. -/
def Line.heldForReceipt (l : Line) : Bool := l.startAtHead && l.receipt.isSome

/-- R24, R64: that START is held for the watermark hold. -/
def State.heldForPool (s : State) (n : LineNo) : Bool := (s.line n).startAtHead && s.poolHold

/-- R168: the held-START cause: none, receipt slot full, watermark hold, both. -/
def State.heldCause (s : State) (n : LineNo) : Nat :=
  match (s.line n).heldForReceipt, s.heldForPool n with
  | false, false => 0
  | true, false => 1
  | false, true => 2
  | true, true => 3

/-- R59, R3: the HOLD output of line `n`. -/
def State.lineHold (s : State) (n : LineNo) : Bool :=
  s.op = some .autoclear || (s.line n).state = .disabled || (s.line n).fillHold
    || (s.line n).heldForReceipt || s.heldForPool n

/-- R135, R3: the hold of Answer-Back Input `n`. -/
def State.abHold (s : State) (n : LineNo) : Bool :=
  s.op = some .autoclear || (s.abSlot n).frame.isSome

/-- R134: the serve states. -/
inductive ServeState where
  | none | selected | held
  deriving DecidableEq, Repr

def serveStateByte (v : ServeState) : Byte :=
  match v with
  | .none => 0
  | .selected => 1
  | .held => 2

/-- R136, R137: the serve state of slot `n`: SELECTED from the beginning of its service, HELD once its
lookup has been held. -/
def State.serveState (s : State) (n : LineNo) : ServeState :=
  match s.lookups.find? (fun l => isServiceOf n l.user) with
  | none => .none
  | some l => if l.held then .held else .selected

/-- R164: the designator latch is empty. -/
def Latch.isEmpty (l : Latch) : Bool := l.sub.isNone && l.acct.isNone && l.page.isNone

/-- R163: at least one enabled notice cause is set. -/
def State.noticePending (s : State) : Bool := s.port.causes &&& s.port.enables ≠ 0

/-- R166: the NOTICE output. -/
def State.notice (s : State) : Bool := s.noticePending && s.port.latch.isEmpty

/-- R163: the status byte. -/
def State.statusByte (s : State) : Byte :=
  (if s.busy then 0x01 else 0) ||| (if s.port.ready then 0x02 else 0)
    ||| (if s.noticePending then 0x04 else 0) ||| (if s.port.fourBit then 0x08 else 0)

end Sys2Proof.Machine
end

