-- ==== Sys2Proof/Machine/Tariff.lean ====
section
/-! DEFINITION. The Tariff Unit (Chapter 3): the acceptance charge, the credit test, the attempt
surcharge, the refunds, and the listen window and one-way spacing. It keeps no state (R43). -/

namespace Sys2Proof.Machine

/-- ceil(n / 16). -/
def blocksOf (n : Nat) : Nat := (n + 15) / 16

/-- R46, R49, R54: a figure stretched by a multiplier in sixteenths, rounded half up. -/
def stretch (v m16 : Nat) : Nat := (v * m16 + 8) / 16

/-- R44: the billable blocks of a page of `n` characters with `f` free ones. -/
def billableBlocks (n f : Nat) : Nat := blocksOf (n - f)

/-- R45: the raw charge, from the fields B, U, P, F of a row. -/
def rawCharge (b u p f n : Nat) (prio : Priority) : Nat :=
  b * (match prio with | .urgent => u | .normal => 1) + billableBlocks n f * p

/-- R46: the charge of a page. -/
def chargeOf (b u p f n : Nat) (prio : Priority) (m16 : Nat) : Nat :=
  min Config.chargeMax (stretch (rawCharge b u p f n prio) m16)

/-- R48: the credit test. -/
def creditOk (balance : Int) (cl charge : Nat) : Bool := -(cl : Int) ≤ balance - (charge : Int)

/-- R49: the tier factor. -/
def tierFactor (tier : Nat) : Nat := if tier = 1 then 1 else if tier = 2 then 2 else 4

/-- R49: the attempt surcharge, from field S of a row. -/
def surchargeOf (sf tier m16 : Nat) : Nat := stretch (sf * tierFactor tier) m16

/-- R52: the partial refund, from field R of a row. -/
def partialRefund (charge r : Nat) : Nat := charge * r / 8

/-- R53: the refund of an ending, from field R of a row. -/
def refundOf (k : Ending) (charge attempts r : Nat) : Nat :=
  match k with
  | .expired => partialRefund charge r
  | .cancelled => if attempts = 0 then charge else partialRefund charge r
  | .aborted => charge
  | .delivered | .sentOnly | .none => 0

/-- R54: the listen window before the stretch; R55: the spacing before it. -/
def rawWindow (base cap attempts : Nat) (oneWay : Bool) : Nat :=
  if oneWay then min cap base else min cap (base * 2 ^ (attempts - 1))

/-- R54 to R56: the figure handed to the Retry Wheel. -/
def windowOf (base cap attempts : Nat) (oneWay : Bool) (m16 : Nat) : Nat :=
  max 1 (min Config.windowMax (stretch (rawWindow base cap attempts oneWay) m16))

/-- R43: the charge of a page of a subscriber of class `cls` on home channel `c`, as the row, the level
and the multiplier stand. -/
def State.chargeFor (s : State) (cls : Nat) (c : Chan) (n : Nat) (prio : Priority) : Nat :=
  chargeOf (s.tariffB cls) (s.tariffU cls) (s.tariffP cls) (s.tariffF cls) n prio
    (s.m16 (s.mon c).level)

/-- R49, R50: the surcharge of an entry at a SENT. -/
def State.surchargeFor (s : State) (e : Entry) : Nat :=
  surchargeOf (s.tariffS e.cls) ((e.attempt.map (fun a => a.tier)).getD 1)
    (s.m16 (s.mon e.chan).level)

/-- R50, R54 to R56: the window or spacing of an entry for its attempts. -/
def State.windowFor (s : State) (e : Entry) : Nat :=
  windowOf e.base e.cap e.attempts ((e.attempt.map (fun a => a.oneWay)).getD false)
    (s.m16 (s.mon e.chan).level)

/-- R52, R53: the refund that an entry's ending of kind `k` pays. -/
def State.refundFor (s : State) (k : Ending) (e : Entry) : Nat :=
  refundOf k e.charge e.attempts (s.tariffR e.cls)

end Sys2Proof.Machine
end

