-- ==== Sys2Proof/Machine/Ledger.lean ====
section
/-! DEFINITION. The account events (R34 to R36): each applies all its changes to one account, recomputes
the overrun flag where the balance or CL changed, and sets the mark. -/

namespace Sys2Proof.Machine

/-- R26, R36: a balance stops at the ends of its range. -/
def clampBalance (v : Int) : Int := max Config.balanceMin (min Config.balanceMax v)

/-- R35: the account with its overrun flag recomputed. -/
def Account.recompute (a : Account) : Account := { a with overrun := overrunOf a.balance a.cl }

/-- R35, R37: account `i` takes the changed record `a` whole, its overrun flag recomputed; OVERRUN is
raised when the flag goes from clear to set. -/
def State.commit (s : State) (i : Nat) (a : Account) : State :=
  let s' := s.setAcct i a.recompute
  if a.recompute.overrun && !(s.acct i).overrun then s'.raise .overrun else s'

/-- R36: the record of an account after the charge `c` of an admission. -/
def Account.admitPage (a : Account) (c : Nat) : Account :=
  { a with
    balance := clampBalance (a.balance - c)
    held := satAdd Config.max24 a.held c
    accepted := satAdd Config.max16 a.accepted 1
    charged := satAdd Config.max24 a.charged c
    mark := true }

/-- R36, R51: the record of an account after a SENT that takes the surcharge `sc`. -/
def Account.takeSurcharge (a : Account) (sc : Nat) : Account :=
  { a with
    balance := clampBalance (a.balance - sc)
    attempts := satAdd Config.max24 a.attempts 1
    charged := satAdd Config.max24 a.charged sc
    mark := true }

/-- R36: the record of an account after a SENT that takes no surcharge. -/
def Account.countAttempt (a : Account) : Account :=
  { a with attempts := satAdd Config.max24 a.attempts 1, mark := true }

/-- R36: the period counter of an ending of kind `k`. -/
def Account.countEnding (a : Account) (k : Ending) : Account :=
  match k with
  | .delivered => { a with delivered := satAdd Config.max16 a.delivered 1 }
  | .sentOnly => { a with sentOnly := satAdd Config.max16 a.sentOnly 1 }
  | .expired => { a with expired := satAdd Config.max16 a.expired 1 }
  | .cancelled => { a with cancelled := satAdd Config.max16 a.cancelled 1 }
  | .aborted => { a with aborted := satAdd Config.max16 a.aborted 1 }
  | .none => a

/-- R36, R52: the record of an account after an ending of kind `k` of a page charged `c` that pays the
refund `r`. -/
def Account.endPage (a : Account) (k : Ending) (c r : Nat) : Account :=
  { a.countEnding k with
    balance := clampBalance (a.balance + r)
    held := a.held - c
    refunded := satAdd Config.max24 a.refunded r
    mark := true }

/-- R53: the endings that have no refund leave the balance alone. -/
def Account.endUnpaid (a : Account) (k : Ending) (c : Nat) : Account :=
  { a.countEnding k with held := a.held - c, mark := true }

/-- R36: an admission takes its charge. -/
def State.admissionEvent (s : State) (i c : Nat) : State := s.commit i ((s.acct i).admitPage c)

/-- R36, R128: the SENT of a live entry whose attempts are now `k` reaches account `i`. DESIGN CHOICE (log
entry 31): an account that was closed under a live page charged 0 takes the event as R36 says and is
marked, though R27 calls the case impossible. -/
def State.sentEvent (s : State) (i k sc : Nat) : State :=
  if 2 ≤ k then s.commit i ((s.acct i).takeSurcharge sc)
  else s.setAcct i (s.acct i).countAttempt

/-- R36, R53: an ending reaches account `i`. DESIGN CHOICE (log entry 31): so it does an account closed under
a live page charged 0. -/
def State.endingEvent (s : State) (i : Nat) (k : Ending) (c r : Nat) : State :=
  match k with
  | .delivered | .sentOnly | .none => s.setAcct i ((s.acct i).endUnpaid k c)
  | .expired | .cancelled | .aborted => s.commit i ((s.acct i).endPage k c r)

/-- R12, R34: the reference count of account `i` changes; the mark stays. -/
def State.raiseRefs (s : State) (i : Nat) : State :=
  s.setAcct i { s.acct i with refs := satAdd 4096 (s.acct i).refs 1 }
def State.lowerRefs (s : State) (i : Nat) : State :=
  s.setAcct i { s.acct i with refs := (s.acct i).refs - 1 }

end Sys2Proof.Machine
end

