-- ==== Sys2Proof/Machine/Pages.lean ====
section
/-! DEFINITION. What every block does to a page: its place (R88), its scheduling on the Retry Wheel
(R105, R106), the request of its launch (R109, R110), and its ending (R91). -/

namespace Sys2Proof.Machine

/-! ## The Text Pool's stack (R23) -/

/-- R23, R24: `k` blocks are taken from the top of the stack and the hold is recomputed. -/
def State.takeBlocks (s : State) (k : Nat) : State :=
  State.recomputePool { s with freeBlocks := s.freeBlocks.drop k }

/-- R23, R24: the blocks `bs` are pushed in text order and the hold is recomputed. -/
def State.giveBlocks (s : State) (bs : List Nat) : State :=
  State.recomputePool { s with freeBlocks := bs.reverse ++ s.freeBlocks }

/-! ## Places -/

/-- R107: a tag taken off slot `w`'s list is not visited there; a visit with no tag left is over. -/
def visitsWithout (vs : List Visit) (w : Nat) (t : Tag) : List Visit :=
  (vs.map (fun v => if v.slot = w then { v with todo := v.todo.erase t } else v)).filter
    (fun v => !v.todo.isEmpty)

/-- R106: tag `t` leaves the list of wheel slot `w`; the other tags keep their order. -/
def State.leaveWheel (s : State) (t : Tag) (w : Nat) : State :=
  { s.setWheelList w ((s.wheelList w).erase t) with visits := visitsWithout s.visits w t }

/-- R106: tag `t` leaves the wheel slot that its entry records, if it stands on one. -/
def State.leaveSlot (s : State) (t : Tag) (e : Entry) : State :=
  match e.wheel with
  | some (w, _) => s.leaveWheel t w
  | none => s

/-- R123: tag `t` leaves the bands of channel `c`. -/
def State.leaveBand (s : State) (t : Tag) (c : Chan) : State :=
  s.setChan c { s.chan c with urgent := (s.chan c).urgent.erase t, normal := (s.chan c).normal.erase t }

/-- A line with tag `t` unbound. -/
def Line.unbind (l : Line) (t : Tag) : Line := if l.bound = some t then { l with bound := none } else l

/-- R90, R91: tag `t` is unbound from whichever line is assembling it. -/
def State.unbindLines (s : State) (t : Tag) : State :=
  { s with lines := ⟨s.lines.v0.unbind t, s.lines.v1.unbind t, s.lines.v2.unbind t, s.lines.v3.unbind t⟩ }

/-- The line that is assembling tag `t`. -/
def State.boundLine (s : State) (t : Tag) : Option LineNo :=
  ([0, 1, 2, 3] : List LineNo).find? (fun n => (s.line n).bound = some t)

/-- R91, step 2: entry `e` of tag `t` leaves its place, and a launch asked for it is dropped; the tag of
an ON_AIR entry stays on the outstanding list. -/
def State.leavePlace (s : State) (t : Tag) (e : Entry) : State :=
  State.dropLookup
    (match e.state with
      | .assembling => s.unbindLines t
      | .waiting | .listening => s.leaveSlot t e
      | .queued => s.leaveBand t e.chan
      | .onAir => s)
    (isLaunchOf t)

/-! ## Scheduling and launch requests -/

/-- R105, step 1: the delay limited to the time left before the deadline. -/
def delayOf (deadline time d : Nat) : Nat := if deadline ≤ time then 1 else min d (deadline - time)

/-- R105, R106: entry `e` of tag `t` is placed `d` seconds ahead on the wheel in state `st`. -/
def State.schedule (s : State) (t : Tag) (e : Entry) (st : PageState) (d : Nat) : State :=
  let d' := delayOf e.deadline s.time d
  let w := (s.head + d') % Config.wheelSlots
  let s1 := s.leaveSlot t e
  let s2 := s1.setWheelList w (s1.wheelList w ++ [t])
  s2.setEntry t.slot { e with state := st, wheel := some (w, (d' - 1) / Config.wheelSlots) }

/-- R110: the launch of tag `t` asks the directory for its record. -/
def State.askLaunch (s : State) (t : Tag) : State := s.askLookup (.launch t)

/-- R90: the completion of an ASSEMBLING entry: its binding is cleared and its launch is asked for. -/
def State.completeEntry (s : State) (t : Tag) : State := (s.unbindLines t).askLaunch t

/-! ## The ending of a page (R91) -/

/-- R15: the live count of the record at `a` falls by 1; a RETIRING record brought to 0 has its removal
begun, or made pending. -/
def State.lowerLive (s : State) (a : Nat) : State :=
  let s' := s.updateRecord a (fun r => { r with live := r.live - 1 })
  match s'.record a with
  | some r => if r.state = .retiring && r.live = 0 then s'.endingRemoval a else s'
  | none => s'

/-- R85: slot `i` becomes free and records the ending `k`; its generation stays. -/
def State.freeSlot (s : State) (i : Nat) (k : Ending) : State :=
  s.setSlot i { s.slot i with last := k, entry := none }

/-- R91: the live entry of tag `t` ends with kind `k`: its blocks are given back, it leaves its place,
its account receives the ending with its refund, its subscriber's live count falls, and its slot
becomes free. A tag that names no live entry is passed over. -/
def State.endEntry (s : State) (k : Ending) (t : Tag) : State :=
  match s.entry t with
  | none => s
  | some e =>
    let r := s.refundFor k e
    let s1 := s.giveBlocks e.blocks
    let s2 := s1.leavePlace t e
    let s3 := s2.endingEvent e.account k e.charge r
    let s4 := s3.lowerLive e.addr
    s4.freeSlot t.slot k

/-- The indices of the Pending Page Table. -/
def slotIndices : List Nat := List.range Config.pageSlots

/-- R80, R85: the free slot of lowest index. -/
def State.freeIndex (s : State) : Option Nat := slotIndices.find? (fun i => (s.slot i).entry.isNone)

/-- R2: the table holds a live entry. -/
def State.anyLive (s : State) : Bool := slotIndices.any (fun i => (s.slot i).entry.isSome)

/-- R103: how many entries stand in state `st`. -/
def State.countState (s : State) (st : PageState) : Nat :=
  slotIndices.countP (fun i => ((s.slot i).entry.map (fun e => e.state)) = some st)

end Sys2Proof.Machine
end

