-- ==== Sys2Proof/Machine/Admission.lean ====
section
/-! DEFINITION. The Admission Unit (R78 to R84): the checks made at the arrival of a request, the checks
made when its lookup is answered, and what an admission does. -/

namespace Sys2Proof.Machine

/-- R81: what the routing ranges say of a unit address. -/
inductive Disposition where
  | localOffice
  | foreign (peer : Nat)
  | blocked
  deriving DecidableEq, Repr

/-- R81: a disposition by its code, with the peer office that goes with it. -/
def dispositionOf (code peer : Nat) : Disposition :=
  match code with
  | 0 => .localOffice
  | 1 => .foreign peer
  | _ => .blocked

/-- R81: range `r` is enabled and holds address `a`. -/
def State.rangeMatches (s : State) (a r : Nat) : Bool :=
  s.setting (routingAddr r 0) = 1 && s.setting (routingAddr r 1) ≤ a && a ≤ s.setting (routingAddr r 4)

/-- R81: the first range that matches decides; the default where none does. -/
def State.disposition (s : State) (a : Nat) : Disposition :=
  match (List.range 8).find? (fun r => s.rangeMatches a r) with
  | some r => dispositionOf (s.setting (routingAddr r 7)) (s.setting (routingAddr r 8))
  | none => dispositionOf (s.setting 0x140) (s.setting 0x141)

/-- R79, R80: checks 1 and 2, made at the arrival of a request; the reason and peer office of a refusal. -/
def State.arrivalRefusal (s : State) (h : Header) : Option (Reason × Nat) :=
  if Config.textMax < h.len then some (.length, 0)
  else
    match s.disposition h.addr with
    | .localOffice => none
    | .foreign peer => some (.foreign, peer)
    | .blocked => some (.blocked, 0)

/-- R80: checks 4 to 9 for a record, at the answer of the lookup. -/
def State.recordRefusal (s : State) (h : Header) (r : Subscriber) : Option Reason :=
  if r.state = .suspended then some .suspended
  else if r.state = .retiring then some .retired
  else if (s.acct r.account).state = .barred then some .barred
  else if Config.liveLimit ≤ r.live then some .liveLimit
  else if s.freeIndex.isNone then some .tableFull
  else if s.freeBlocks.length < blocksOf h.len then some .poolFull
  else if !creditOk (s.acct r.account).balance (s.acct r.account).cl
      (s.chargeFor r.cls r.home h.len h.priority) then some .noCredit
  else none

/-- R83: a live entry of address `a` holds serial `v`. -/
def State.serialTaken (s : State) (a v : Nat) : Bool :=
  slotIndices.any (fun i =>
    match (s.slot i).entry with
    | some e => e.addr = a && e.serial = v
    | none => false)

/-- R83: the first value from `next` around the circle that no live entry of `a` holds. -/
def State.pickSerial (s : State) (a next : Nat) : Nat :=
  (((List.range 64).map (fun k => (next + k) % 64)).find? (fun v => !s.serialTaken a v)).getD (next % 64)

/-- R82: the deadline of a page admitted now with this lifetime. -/
def deadlineOf (time lifetime : Nat) : Nat := min Config.timeMax (time + lifetime)

/-- R82: the entry of an admission. -/
def State.newEntry (s : State) (src : Source) (h : Header) (r : Subscriber) (serial : Nat) : Entry :=
  { state := .assembling, addr := h.addr, chan := r.home, serial := serial, priority := h.priority,
    kind := h.kind, len := h.len, blocks := s.freeBlocks.take (blocksOf h.len),
    account := r.account, cls := r.cls,
    maxAttempts := s.setting (profileAddr r.profile 0), t1 := s.setting (profileAddr r.profile 1),
    t2 := s.setting (profileAddr r.profile 2), base := s.setting (profileAddr r.profile 3),
    cap := s.setting (profileAddr r.profile 5), lifetime := s.setting (profileAddr r.profile 7),
    charge := s.chargeFor r.cls r.home h.len h.priority, attempts := 0, deferrals := 0, source := src,
    accepted := s.time, deadline := deadlineOf s.time (s.setting (profileAddr r.profile 7)),
    attempt := none, cancelPending := false, expirePending := false, wheel := none }

/-- R82, R85: slot `i` is allocated to `e`: its generation advances and its free flag clears. -/
def State.allocate (s : State) (i : Nat) (e : Entry) : State :=
  s.setSlot i { s.slot i with gen := ((s.slot i).gen + 1) % 256, entry := some e }

/-- R82: the tag that an allocation of slot `i` gives. -/
def State.nextTag (s : State) (i : Nat) : Tag := { slot := i, gen := ((s.slot i).gen + 1) % 256 }

/-- R82: the admission into slot `i` of a submission with header `h` from `src`, for record `r`, under
serial `serial`. -/
def State.admitPage (s : State) (i : Nat) (src : Source) (h : Header) (r : Subscriber) (serial : Nat) :
    State :=
  let e := s.newEntry src h r serial
  let s1 := s.takeBlocks (blocksOf h.len)
  let s2 := s1.updateRecord h.addr
    (fun r => { r with nextSerial := (serial + 1) % 64, live := r.live + 1 })
  let s3 := s2.admissionEvent r.account e.charge
  s3.allocate i e

/-- R80, R82: how the chain answers a request whose lookup is answered now. -/
inductive Verdict where
  | refused (reason : Reason)
  | admitted (slot : Nat) (r : Subscriber) (serial : Nat)
  deriving DecidableEq, Repr

/-- R79, R80: checks 3 to 9, made as one event at the answer. -/
def State.verdict (s : State) (h : Header) : Verdict :=
  match s.record h.addr with
  | none => .refused .unknown
  | some r =>
    match s.recordRefusal h r, s.freeIndex with
    | some reason, _ => .refused reason
    | none, some i => .admitted i r (s.pickSerial h.addr r.nextSerial)
    | none, none => .refused .tableFull

end Sys2Proof.Machine
end

