-- ==== Sys2Proof/Machine/Lines.lean ====
section
/-! DEFINITION. What happens to an Intake Line as a whole: the receipts (R73), the outcomes of a request
(R66, R67), the line abort (R72) and the ticks that the line takes (R71). -/

namespace Sys2Proof.Machine

/-- R59, R71: the line's idle timer counts ticks. -/
def LineState.counts (st : LineState) : Bool :=
  match st with
  | .header | .text | .check | .skip => true
  | .disabled | .idle | .lookup => false

/-- R73: a REFUSED receipt is written, replacing any in the slot, and the refused counter rises. -/
def Line.refuse (l : Line) (reason : Reason) (peer : Nat) : Line :=
  { l with receipt := some (.refused reason peer), refused := satAdd Config.max16 l.refused 1 }

/-- R60: the line takes the head byte of its FIFO, `h` being its threshold. -/
def Line.takeHead (l : Line) (h : Nat) : Line := Line.refill { l with fifo := l.fifo.tail } h

/-- R71: the timer is set to 0. -/
def Line.restart (l : Line) : Line := { l with timer := 0 }

/-- R72: the causes of a line abort. -/
inductive AbortCause where
  | fifoOverrun | timeout | flush | disable
  deriving DecidableEq, Repr

/-- R72: the receipt of a cause in a state, none from SKIP and none for the commands. -/
def abortReason (c : AbortCause) (st : LineState) : Option Reason :=
  match c with
  | .fifoOverrun => if st = .skip then none else some .fifoOverrun
  | .timeout => if st = .skip then none else some .timeout
  | .flush | .disable => none

/-- R72, steps 3 and 4: the line emptied and brought to state `st`. -/
def Line.emptied (l : Line) (st : LineState) : Line :=
  { l with state := st, fifo := [], fillHold := false, header := [], sum := 0, remaining := 0,
           bound := none, timer := 0 }

/-- R72: the line after an abort of cause `c`, but for its bound entry and its request. -/
def Line.abort (l : Line) (c : AbortCause) : Line :=
  let l' := l.emptied (if c = .disable then .disabled else .idle)
  match abortReason c l.state with
  | some reason => l'.refuse reason 0
  | none => l'

/-- R72: a line abort of cause `c`: the bound entry ends ABORTED, the request is withdrawn, and the line
is emptied with its receipt. -/
def State.abortLine (s : State) (n : LineNo) (c : AbortCause) : State :=
  let l := s.line n
  let s1 := match l.bound with
    | some t => s.endEntry .aborted t
    | none => s
  let s2 := s1.dropLookup (isRequestOf (.line n))
  s2.setLine n (l.abort c)

/-- R67: a refusal reaches the line. -/
def Line.refusedLine (l : Line) (len : Nat) (reason : Reason) (peer : Nat) : Line :=
  Line.restart { l.refuse reason peer with remaining := len + 1, state := .skip }

/-- R66: an admission reaches the line. -/
def Line.admittedLine (l : Line) (len : Nat) (t : Tag) : Line :=
  Line.restart
    { l with bound := some t, remaining := len, state := if len = 0 then .check else .text }

/-- R71: line `n` takes a tick: in a counting state its timer rises, and at the idle timeout or above the
line aborts. -/
def State.tickLine (s : State) (n : LineNo) : State :=
  let timer := satAdd 60 (s.line n).timer 1
  if !(s.line n).state.counts then s
  else if s.idleLimit n ≤ timer then s.abortLine n .timeout
  else s.setLine n { s.line n with timer := timer }

/-- Whether line `n` still has a tick to take. -/
def State.setTickDue (s : State) (n : LineNo) (due : Bool) : State :=
  s.setLine n { s.line n with tickDue := due }

/-- R71, R107: the line takes the tick that it has still to take. -/
def State.takeLateTick (s : State) (n : LineNo) : State :=
  if (s.line n).tickDue then (s.setTickDue n false).tickLine n else s

/-- R77: PURGE TRAFFIC has ended the entry that the line was assembling. -/
def Line.purged (l : Line) : Line :=
  Line.restart { l with bound := none, remaining := l.remaining + 1, state := .skip }

end Sys2Proof.Machine
end

