-- ==== Sys2Proof/Machine/Port.lean ====
section
/-! DEFINITION. The Command Port's framing (R160 to R165): the command code table, strobes and bytes,
frames opened, abandoned and taken, results, and the two steps that every command row is made of. -/

namespace Sys2Proof.Machine

/-! ## The command code table -/

/-- Chapter 11, COMMAND CODES: the code of a command. -/
def cmdCode (c : Cmd) : Byte :=
  match c with
  | .selSubscriber => 0x01
  | .selAccount => 0x02
  | .selPage => 0x03
  | .selClear => 0x04
  | .portWidth => 0x05
  | .noticeEnable => 0x06
  | .noticeClear => 0x07
  | .noticeRead => 0x08
  | .addSubscriber => 0x10
  | .readSubscriber => 0x11
  | .writeField => 0x12
  | .linkAccount => 0x13
  | .suspend => 0x14
  | .resume => 0x15
  | .retire => 0x16
  | .cursorSet => 0x17
  | .cursorRead => 0x18
  | .cursorReadMarked => 0x19
  | .markMode => 0x1A
  | .partition => 0x1B
  | .memoryStatus => 0x1C
  | .openAccount => 0x20
  | .bar => 0x21
  | .unbar => 0x22
  | .adjustBalance => 0x23
  | .writeLimit => 0x24
  | .closeAccount => 0x25
  | .readAccount => 0x26
  | .tablePointer => 0x28
  | .tableRead => 0x29
  | .tableWrite => 0x2A
  | .lineEnable => 0x30
  | .lineDisable => 0x31
  | .lineFlush => 0x32
  | .lineStatus => 0x33
  | .lineClear => 0x34
  | .pageStatus => 0x40
  | .cancelPage => 0x41
  | .submitPage => 0x42
  | .purgeTraffic => 0x43
  | .setClock => 0x48
  | .readClock => 0x49
  | .channelOpen => 0x50
  | .channelDrain => 0x51
  | .channelClose => 0x52
  | .channelStatus => 0x53
  | .channelClear => 0x54
  | .answerBackStatus => 0x58
  | .answerBackClear => 0x59
  | .monitorEnable => 0x60
  | .monitorDisable => 0x61
  | .monitorStatus => 0x62
  | .settleBegin => 0x68
  | .settleRead => 0x69

/-- Every command of the table. -/
def allCmds : List Cmd :=
  [.selSubscriber, .selAccount, .selPage, .selClear, .portWidth, .noticeEnable, .noticeClear, .noticeRead]
  ++ [.addSubscriber, .readSubscriber, .writeField, .linkAccount, .suspend, .resume, .retire]
  ++ [.cursorSet, .cursorRead, .cursorReadMarked, .markMode, .partition, .memoryStatus]
  ++ [.openAccount, .bar, .unbar, .adjustBalance, .writeLimit, .closeAccount, .readAccount]
  ++ [.tablePointer, .tableRead, .tableWrite]
  ++ [.lineEnable, .lineDisable, .lineFlush, .lineStatus, .lineClear]
  ++ [.pageStatus, .cancelPage, .submitPage, .purgeTraffic, .setClock, .readClock]
  ++ [.channelOpen, .channelDrain, .channelClose, .channelStatus, .channelClear]
  ++ [.answerBackStatus, .answerBackClear, .monitorEnable, .monitorDisable, .monitorStatus]
  ++ [.settleBegin, .settleRead]

/-- R161: a byte is the code of a command of the table. -/
def codeKnown (b : Byte) : Bool := allCmds.any (fun c => cmdCode c = b)

/-- Chapter 11, COMMAND CODES: the argument bytes of a command of fixed length. TABLE WRITE has at least
its count byte, and SUBMIT PAGE at least its five header bytes. -/
def cmdArgs (c : Cmd) : Nat :=
  match c with
  | .selSubscriber | .adjustBalance => 3
  | .selAccount | .selPage | .writeField | .writeLimit | .tablePointer | .lineClear | .answerBackClear => 2
  | .addSubscriber | .openAccount | .submitPage => 5
  | .cursorSet | .setClock => 4
  | .portWidth | .noticeEnable | .noticeClear | .markMode | .partition | .tableRead | .tableWrite
  | .lineEnable | .lineDisable | .lineFlush | .lineStatus
  | .channelOpen | .channelDrain | .channelClose | .channelStatus | .channelClear
  | .answerBackStatus => 1
  | .selClear | .noticeRead | .readSubscriber | .linkAccount | .suspend | .resume | .retire
  | .cursorRead | .cursorReadMarked | .memoryStatus | .bar | .unbar | .closeAccount | .readAccount
  | .pageStatus | .cancelPage | .purgeTraffic | .readClock
  | .monitorEnable | .monitorDisable | .monitorStatus | .settleBegin | .settleRead => 0

/-- R165: the commands that are not operative and do not judge the latch. -/
def operative (c : Cmd) : Bool :=
  match c with
  | .selSubscriber | .selAccount | .selPage | .selClear | .portWidth | .noticeEnable | .noticeClear
  | .noticeRead => false
  | _ => true

/-- Chapter 11, COMMAND CODES: the command needs a SUBSCRIBER designator. -/
def needsSub (c : Cmd) : Bool :=
  match c with
  | .addSubscriber | .readSubscriber | .writeField | .linkAccount | .suspend | .resume | .retire => true
  | _ => false

/-- The command needs an ACCOUNT designator. -/
def needsAcct (c : Cmd) : Bool :=
  match c with
  | .addSubscriber | .linkAccount | .openAccount | .bar | .unbar | .adjustBalance | .writeLimit
  | .closeAccount | .readAccount => true
  | _ => false

/-- The command needs a PAGE designator. -/
def needsPage (c : Cmd) : Bool :=
  match c with
  | .pageStatus | .cancelPage => true
  | _ => false

/-- R165: every listed designator is latched and no other kind. -/
def latchMatches (c : Cmd) (l : Latch) : Bool :=
  l.sub.isSome == needsSub c && l.acct.isSome == needsAcct c && l.page.isSome == needsPage c

/-- R162: a frame of this command whose last byte arrives while busy is set is refused with BUSY. The
non-operative commands, those of Chapters 1 and 2 other than TABLE WRITE, and SUBMIT PAGE act. -/
def refusedWhileBusy (c : Cmd) : Bool :=
  match c with
  | .tableWrite | .lineEnable | .lineDisable | .lineFlush | .lineStatus | .lineClear
  | .pageStatus | .cancelPage | .purgeTraffic | .setClock | .readClock
  | .channelOpen | .channelDrain | .channelClose | .channelStatus | .channelClear
  | .answerBackStatus | .answerBackClear | .monitorEnable | .monitorDisable | .monitorStatus
  | .settleBegin | .settleRead => true
  | _ => false

/-- R41, R97, R161: a frame of command `c` with the arguments `args` has received its last byte. -/
def argsComplete (c : Cmd) (args : List Byte) : Bool :=
  match c with
  | .tableWrite =>
    let n := (args.getD 0 0).toNat
    !args.isEmpty && args.length = (if 1 ≤ n && n ≤ 64 then 1 + n else 1)
  | .submitPage => 5 ≤ args.length && args.length = 5 + (args.getD 4 0).toNat
  | c => args.length = cmdArgs c

/-! ## Strobes (R160) -/

/-- R160: the strobe that completes byte `b`. In 8-bit mode every strobe does; in 4-bit mode the second
strobe of a pair, when the nibble pending is the high nibble of `b` from a strobe of the same direction
and CD. `none` where no strobe of the port completes that byte now. -/
def State.strobe (s : State) (write cd : Bool) (b : Byte) : Option State :=
  if s.port.fourBit then
    if s.port.nibble = some { write, cd, value := (b >>> 4).setWidth 4 } then
      some { s with port := { s.port with nibble := none } }
    else none
  else some s

/-! ## Results (R163) -/

/-- R163: a result is written. -/
def State.setResult (s : State) (bs : List Byte) : State :=
  { s with port := { s.port with result := bs, readIdx := 0, ready := true } }

/-- R168: a result that is a code byte alone, or begins with one. -/
def State.answer (s : State) (c : Code) (bs : List Byte) : State := s.setResult (codeByte c :: bs)

/-- R163: the buffer is emptied and result ready cleared. -/
def State.clearResult (s : State) : State :=
  { s with port := { s.port with result := [], readIdx := 0, ready := false } }

/-! ## Frames (R161, R165) -/

def State.setFrame (s : State) (f : Option Frame) : State := { s with port := { s.port with frame := f } }

def State.setLatch (s : State) (l : Latch) : State := { s with port := { s.port with latch := l } }

/-- R99: an incomplete frame goes, with the withdrawal or the ABORTED ending of a SUBMIT PAGE frame. -/
def State.dropFrame (s : State) : State :=
  match s.port.frame with
  | none => s
  | some f =>
    State.setFrame
      (match f.outcome with
        | .outstanding => s.dropLookup (isRequestOf .port)
        | .admitted t _ => s.endEntry .aborted t
        | .none | .refused _ _ => s)
      none

/-- R161: an incomplete frame is abandoned, and ABANDONED is written. -/
def State.abandon (s : State) : State :=
  if s.port.frame.isSome then s.dropFrame.answer .abandoned [] else s

/-- R165: the frame that the code of `c` opens. -/
def State.newFrame (s : State) (c : Cmd) : Frame :=
  { cmd := c, args := [],
    misq := operative c && !latchMatches c s.port.latch,
    desig := if operative c then s.port.latch else emptyLatch,
    outcome := .none }

/-- R163, R165: the code of `c` is taken: the latch is emptied by an operative command, and the buffer
unless it holds the ABANDONED of the frame before (`had`). -/
def State.openFrame (s : State) (c : Cmd) (had : Bool) : State :=
  let s1 := if operative c then s.setLatch emptyLatch else s
  if had then s1 else s1.clearResult

/-- R165: a frame marked MISQUALIFIED gives that at its last byte; another is taken by `take`. -/
def State.takeFrame (s : State) (take : Frame → State → State) (f : Frame) : State :=
  if f.misq then s.answer .misqualified [] else take f s

/-- R161, R162: the code of command `c` is written. An incomplete frame is abandoned first; then the
code receives BUSY, or opens a frame, or is taken at once when the command has no argument. -/
def portCode (c : Cmd) (take : Frame → State → State) (s : State) : State :=
  match s.strobe true false (cmdCode c) with
  | none => s
  | some s0 =>
    let had := s0.port.frame.isSome
    let s1 := s0.abandon
    if s1.busy then s1.answer .busy [flagByte had]
    else
      let f := s1.newFrame c
      let s2 := s1.openFrame c had
      if cmdArgs c = 0 then s2.takeFrame take f else s2.setFrame (some f)

/-- R161, R162: the last argument byte `b` of a frame of command `c` is written, and the command is
taken. Where no frame of `c` is open with `b` its last byte, there is no such step. -/
def portLast (c : Cmd) (take : Frame → State → State) (b : Byte) (s : State) : State :=
  match s.strobe true true b, s.port.frame with
  | some s0, some f =>
    if f.cmd = c && argsComplete c (f.args ++ [b]) then
      let s1 := s0.setFrame none
      if s1.busy && refusedWhileBusy c then s1.answer .busy []
      else s1.takeFrame take { f with args := f.args ++ [b] }
    else s
  | _, _ => s

/-- A step of a command row. -/
def portRow (c : Cmd) (take : Frame → State → State) (w : PortWrite) (s : State) : State :=
  match w with
  | .code => portCode c take s
  | .last b => portLast c take b s

end Sys2Proof.Machine
end

