-- ==== Sys2Proof/Machine/Directory.lean ====
section
/-! DEFINITION. The commands of Chapter 1 and the completions of the additions, removals and rebuilds
that they begin. -/

namespace Sys2Proof.Machine

/-- What a meaning answers with. -/
abbrev Res := Host.Outcome State Fault Refusal

/-- R21: the mark mode applied to a record by a host operation. -/
def Subscriber.hostMarked (r : Subscriber) (m : MarkMode) : Subscriber :=
  { r with mark := hostMark m r.mark }

/-- A host operation that is taken on the record at `a`: `f`, then the mark mode. -/
def State.hostWrite (s : State) (a : Nat) (f : Subscriber → Subscriber) : State :=
  s.updateRecord a (fun r => (f r).hostMarked s.markMode)

/-! ## ADD SUBSCRIBER (R9, R10) -/

/-- R5: the record of a taken ADD SUBSCRIBER. -/
def newRecord (f : Frame) (home : Chan) (m : MarkMode) : Subscriber :=
  { addr := f.sub, state := .active, cls := f.arg 0, account := f.acct, profile := f.arg 1, home := home,
    homeZone := f.arg 3, zone := f.arg 3, lastHeard := none, oneWay := f.arg 4 = 1, nextSerial := 0,
    live := 0, mark := hostMark m false }

/-- R9, check 2: the arguments are in range. -/
def addArgsOk (f : Frame) : Bool :=
  f.arg 0 ≤ 7 && f.arg 1 ≤ 7 && f.arg 2 ≤ 1 && f.arg 3 ≤ 15 && f.arg 4 ≤ 1

/-- R9. -/
def takeAddSubscriber (f : Frame) (s : State) : State :=
  if s.busy then s.answer .state []
  else
    match addArgsOk f, chanOfCode (f.arg 2) with
    | true, some home =>
      if (s.record f.sub).isSome then s.answer .duplicate []
      else if dirCapacity s.partition ≤ s.directory.length then s.answer .full []
      else if (s.acct f.acct).state = .unused then s.answer .referenced []
      else (s.answer .ok []).beginOp (.addition (newRecord f home s.markMode))
    | _, _ => s.answer .range []

def execAddSubscriber (w : PortWrite) (s : State) : Res :=
  .next (portRow .addSubscriber takeAddSubscriber w s)

/-- R4, R10: a record written at its insertion point: every record of a greater address moves up. -/
def insertRecord (r : Subscriber) (d : List Subscriber) : List Subscriber :=
  d.takeWhile (fun q => q.addr < r.addr) ++ r :: d.dropWhile (fun q => q.addr < r.addr)

/-- R10: the insertion move completes. -/
def execAdditionComplete (s : State) : Res :=
  match s.op with
  | some (.addition r) =>
    .next (State.completeOp ({ s with directory := insertRecord r s.directory }.raiseRefs r.account))
  | _ => .next s

/-! ## READ SUBSCRIBER, WRITE FIELD, LINK ACCOUNT, SUSPEND, RESUME, RETIRE -/

/-- R8, R20: the result of a read that found `r`, or found no record. -/
def State.answerRecord (s : State) (r : Option Subscriber) : State :=
  match r with
  | some r => s.answer .ok (subscriberBytes r)
  | none => s.answer .noRecord noRecordBytes

/-- R8. -/
def takeReadSubscriber (f : Frame) (s : State) : State := s.answerRecord (s.record f.sub)

def execReadSubscriber (s : State) : Res := .next (portCode .readSubscriber takeReadSubscriber s)

/-- R11: what WRITE FIELD does to a record, by selector and value; none where the selector names no
writable field or the value is out of its range. -/
def fieldWrite (sel v : Nat) : Option (Subscriber → Subscriber) :=
  match sel with
  | 0 => if v ≤ 7 then some (fun r => { r with cls := v }) else none
  | 1 => if v ≤ 7 then some (fun r => { r with profile := v }) else none
  | 2 => (chanOfCode v).map (fun c => fun r => { r with home := c })
  | 3 => if v ≤ 15 then some (fun r => { r with homeZone := v }) else none
  | 4 => if v ≤ 15 then some (fun r => { r with zone := v }) else none
  | 5 => if v ≤ 1 then some (fun r => { r with oneWay := v = 1 }) else none
  | _ => none

/-- R11. -/
def takeWriteField (f : Frame) (s : State) : State :=
  if s.busy then s.answer .state []
  else
    match fieldWrite (f.arg 0) (f.arg 1), s.record f.sub with
    | none, _ => s.answer .range []
    | some _, none => s.answer .noRecord []
    | some g, some r =>
      if r.state = .retiring then s.answer .state []
      else (s.hostWrite f.sub g).answer .ok []

def execWriteField (w : PortWrite) (s : State) : Res := .next (portRow .writeField takeWriteField w s)

/-- R12: both reference counts move with the record; they stay where the account is the one named. -/
def State.moveRefs (s : State) (old new : Nat) : State :=
  if old = new then s else (s.lowerRefs old).raiseRefs new

/-- R12. -/
def takeLinkAccount (f : Frame) (s : State) : State :=
  if s.busy then s.answer .state []
  else
    match s.record f.sub with
    | none => s.answer .noRecord []
    | some r =>
      if r.state = .retiring then s.answer .state []
      else if (s.acct f.acct).state = .unused then s.answer .referenced []
      else
        ((s.moveRefs r.account f.acct).hostWrite f.sub (fun r => { r with account := f.acct })).answer
          .ok []

def execLinkAccount (s : State) : Res := .next (portCode .linkAccount takeLinkAccount s)

/-- R6, R13. -/
def takeSuspend (f : Frame) (s : State) : State :=
  if s.busy then s.answer .state []
  else
    match s.record f.sub with
    | none => s.answer .noRecord []
    | some r =>
      if r.state = .retiring then s.answer .state []
      else (s.hostWrite f.sub (fun r => { r with state := .suspended })).answer .ok []

def execSuspend (s : State) : Res := .next (portCode .suspend takeSuspend s)

/-- R6, R13. -/
def takeResume (f : Frame) (s : State) : State :=
  if s.busy then s.answer .state []
  else
    match s.record f.sub with
    | none => s.answer .noRecord []
    | some _ => (s.hostWrite f.sub (fun r => { r with state := .active })).answer .ok []

def execResume (s : State) : Res := .next (portCode .resume takeResume s)

/-- R14: the record becomes RETIRING; with live count 0 its removal begins at once. -/
def takeRetire (f : Frame) (s : State) : State :=
  if s.busy then s.answer .state []
  else
    match s.record f.sub with
    | none => s.answer .noRecord []
    | some r =>
      if r.state = .retiring then s.answer .state []
      else
        let s1 := (s.hostWrite f.sub (fun r => { r with state := .retiring })).answer .ok [byteOf r.live]
        if r.live = 0 then s1.beginOp (.removal f.sub false) else s1

def execRetire (s : State) : Res := .next (portCode .retire takeRetire s)

/-- R17: the removal of the record at `a` completes. -/
def State.removeRecord (s : State) (a : Nat) : State :=
  let s1 := match s.record a with
    | some r => s.lowerRefs r.account
    | none => s
  { s1 with directory := s1.directory.filter (fun r => r.addr ≠ a) }

/-- R16, R17: the removal move completes. -/
def execRemovalComplete (s : State) : Res :=
  match s.op with
  | some (.removal a byEnding) =>
    let s1 := s.removeRecord a
    .next (State.completeOp (if byEnding then s1.raise .retireDone else s1))
  | _ => .next s

/-! ## The directory cursor (R19, R20, R22) -/

/-- R19. -/
def takeCursorSet (f : Frame) (s : State) : State :=
  if Config.maxAddr < f.num 0 3 then s.answer .range []
  else
    match stepModeOfCode (f.arg 3) with
    | none => s.answer .range []
    | some m => State.answer { s with cursorKey := f.num 0 3, cursorMode := m } .ok []

def execCursorSet (w : PortWrite) (s : State) : Res := .next (portRow .cursorSet takeCursorSet w s)

/-- R20, R22: the record that the cursor finds among those that `p` lets through: the lowest at or above
the key, or in BACKWARD mode the highest at or below it. -/
def State.cursorFind (s : State) (p : Subscriber → Bool) : Option Subscriber :=
  match s.cursorMode with
  | .forward | .hold => s.directory.find? (fun r => s.cursorKey ≤ (r.addr : Int) && p r)
  | .backward => s.directory.reverse.find? (fun r => (r.addr : Int) ≤ s.cursorKey && p r)

/-- R20: the key after a read that found address `a`. -/
def nextKey (m : StepMode) (key : Int) (a : Nat) : Int :=
  match m with
  | .forward => a + 1
  | .backward => a - 1
  | .hold => key

/-- R20. -/
def takeCursorRead (_ : Frame) (s : State) : State :=
  match s.cursorFind (fun _ => true) with
  | none => s.answerRecord none
  | some r => State.answerRecord { s with cursorKey := nextKey s.cursorMode s.cursorKey r.addr } (some r)

def execCursorRead (s : State) : Res := .next (portCode .cursorRead takeCursorRead s)

/-- R22. -/
def takeCursorReadMarked (_ : Frame) (s : State) : State :=
  match s.cursorFind (fun r => r.mark) with
  | none => s.answerRecord none
  | some r =>
    State.answerRecord
      { s.updateRecord r.addr (fun q => { q with mark := false }) with
        cursorKey := nextKey s.cursorMode s.cursorKey r.addr } (some r)

def execCursorReadMarked (s : State) : Res := .next (portCode .cursorReadMarked takeCursorReadMarked s)

/-! ## MARK MODE, PARTITION, MEMORY STATUS -/

/-- R21. -/
def takeMarkMode (f : Frame) (s : State) : State :=
  match markModeOfCode (f.arg 0) with
  | none => s.answer .range []
  | some m => State.answer { s with markMode := m } .ok []

def execMarkMode (w : PortWrite) (s : State) : Res := .next (portRow .markMode takeMarkMode w s)

/-- R2, R18. -/
def takePartition (f : Frame) (s : State) : State :=
  if 3 < f.arg 0 then s.answer .range []
  else if s.anyLive || dirCapacity (f.arg 0) < s.directory.length || s.busy then s.answer .state []
  else (s.answer .ok []).beginOp (.rebuild (f.arg 0))

def execPartition (w : PortWrite) (s : State) : Res := .next (portRow .partition takePartition w s)

/-- R2, R16, R24: the rebuild completes. -/
def execPartitionComplete (s : State) : Res :=
  match s.op with
  | some (.rebuild p) =>
    .next (State.completeOp
      (State.recomputePool { s with partition := p, freeBlocks := List.range (poolCapacity p) }))
  | _ => .next s

/-- R25: the figures of MEMORY STATUS. -/
def memoryStatusBytes (s : State) : List Byte :=
  [byteOf s.partition] ++ beBytes 2 (dirCapacity s.partition) ++ beBytes 2 s.directory.length
    ++ beBytes 2 (poolCapacity s.partition) ++ beBytes 2 s.freeBlocks.length
    ++ [flagByte s.poolHold, markModeByte s.markMode] ++ signedBytes s.cursorKey
    ++ [stepModeByte s.cursorMode]

/-- R25. -/
def takeMemoryStatus (_ : Frame) (s : State) : State := s.answer .ok (memoryStatusBytes s)

def execMemoryStatus (s : State) : Res := .next (portCode .memoryStatus takeMemoryStatus s)

end Sys2Proof.Machine
end

