-- ==== Sys2Proof/Machine/Accounts.lean ====
section
/-! DEFINITION. The account commands (R28 to R33) and the settlement commands (R154 to R157). -/

namespace Sys2Proof.Machine

/-- R28, R35. DESIGN CHOICE (log entry 31): an UNUSED account that a late event of a page charged 0 has
touched keeps its counters and held, and OVERRUN is raised only where its overrun flag goes from clear to
set, so not where the late event has set the flag already. -/
def takeOpenAccount (f : Frame) (s : State) : State :=
  if (s.acct f.acct).state = .unused then
    (s.commit f.acct
      { s.acct f.acct with
        state := .opened, balance := signedValue (f.num 0 3), cl := f.num 3 2, mark := true }).answer .ok []
  else s.answer .state []

def execOpenAccount (w : PortWrite) (s : State) : Res := .next (portRow .openAccount takeOpenAccount w s)

/-- R27, R29: BAR makes an OPEN account BARRED. -/
def takeBar (f : Frame) (s : State) : State :=
  match (s.acct f.acct).state with
  | .unused => s.answer .state []
  | .opened => (s.setAcct f.acct { s.acct f.acct with state := .barred, mark := true }).answer .ok []
  | .barred => s.answer .ok []

def execBar (s : State) : Res := .next (portCode .bar takeBar s)

/-- R27, R29: UNBAR makes a BARRED account OPEN. -/
def takeUnbar (f : Frame) (s : State) : State :=
  match (s.acct f.acct).state with
  | .unused => s.answer .state []
  | .opened => s.answer .ok []
  | .barred => (s.setAcct f.acct { s.acct f.acct with state := .opened, mark := true }).answer .ok []

def execUnbar (s : State) : Res := .next (portCode .unbar takeUnbar s)

/-- R30. -/
def takeAdjustBalance (f : Frame) (s : State) : State :=
  let a := s.acct f.acct
  if a.state = .unused then s.answer .state []
  else
    let sum := a.balance + signedValue (f.num 0 3)
    (s.commit f.acct { a with balance := clampBalance sum, mark := true }).answer .ok
      (signedBytes (clampBalance sum) ++ [flagByte (clampBalance sum ≠ sum)])

def execAdjustBalance (w : PortWrite) (s : State) : Res :=
  .next (portRow .adjustBalance takeAdjustBalance w s)

/-- R31. -/
def takeWriteLimit (f : Frame) (s : State) : State :=
  if (s.acct f.acct).state = .unused then s.answer .state []
  else (s.commit f.acct { s.acct f.acct with cl := f.num 0 2, mark := true }).answer .ok []

def execWriteLimit (w : PortWrite) (s : State) : Res := .next (portRow .writeLimit takeWriteLimit w s)

/-- R32. -/
def takeCloseAccount (f : Frame) (s : State) : State :=
  let a := s.acct f.acct
  if a.state = .unused then s.answer .state []
  else if 0 < a.refs || 0 < a.held then s.answer .referenced []
  else (s.setAcct f.acct unusedAccount).answer .ok (finalBytes a)

def execCloseAccount (s : State) : Res := .next (portCode .closeAccount takeCloseAccount s)

/-- R33. DESIGN CHOICE (log entry 31): an UNUSED account that a late event of a page charged 0 has touched is
reported with the figures that it holds. -/
def takeReadAccount (f : Frame) (s : State) : State := s.answer .ok (accountBytes (s.acct f.acct))

def execReadAccount (s : State) : Res := .next (portCode .readAccount takeReadAccount s)

/-! ## Settlement -/

/-- R155. -/
def takeSettleBegin (_ : Frame) (s : State) : State := State.answer { s with settleCursor := 0 } .ok []

def execSettleBegin (s : State) : Res := .next (portCode .settleBegin takeSettleBegin s)

/-- R156: the first marked account at or above the cursor. DESIGN CHOICE (log entry 31): the mark alone
decides, so an UNUSED account marked by a late event of a page charged 0 is found too. -/
def State.nextMarked (s : State) : Option Nat :=
  (List.range Config.accounts).find? (fun i => s.settleCursor ≤ i && (s.acct i).mark)

/-- R156: the account with its nine period counters and its mark cleared. -/
def Account.settled (a : Account) : Account :=
  { a with accepted := 0, delivered := 0, sentOnly := 0, expired := 0, cancelled := 0, aborted := 0,
           attempts := 0, charged := 0, refunded := 0, mark := false }

/-- R156, R157. -/
def takeSettleRead (_ : Frame) (s : State) : State :=
  match s.nextMarked with
  | some i =>
    State.answer { s.setAcct i (s.acct i).settled with settleCursor := i + 1 } .ok
      (settleBytes i (s.acct i))
  | none => State.answer { s with settleCursor := Config.accounts } .noRecord noSettleBytes

def execSettleRead (s : State) : Res := .next (portCode .settleRead takeSettleRead s)

end Sys2Proof.Machine
end

