-- ==== Sys2Proof/Machine/Monitoring.lean ====
section
/-! DEFINITION. The Load Monitor (Chapter 9): levels and moves, the sample of a tick, and the monitor
commands. -/

namespace Sys2Proof.Machine

/-- R147: the next higher enabled level of `l`. -/
def State.nextHigher (s : State) (l : Nat) : Option Nat :=
  ([1, 2, 3] : List Nat).find? (fun k => l < k && s.levelEnabled k)

/-- R147: the next lower enabled level of `l`. -/
def State.nextLower (s : State) (l : Nat) : Nat :=
  (([3, 2, 1] : List Nat).find? (fun k => k < l && s.levelEnabled k)).getD 0

/-- R146: the effective boot level. -/
def State.effectiveBoot (s : State) : Nat :=
  if s.levelEnabled s.bootLevel then s.bootLevel else s.nextLower s.bootLevel

/-- R147: the level of channel `c` becomes `l`; where that is a different level it is a move. -/
def State.moveLevel (s : State) (c : Chan) (l : Nat) : State :=
  if (s.mon c).level = l then s
  else
    State.raise
      (s.setMon c { s.mon c with level := l, up := 0, down := 0, residency := 0 }) .level

/-- R123: the number of entries in the air queue of `c`, both bands together. -/
def Channel.queueLength (ch : Channel) : Nat := ch.urgent.length + ch.normal.length

/-- R148: the weight of a queue of `q` entries. -/
def weightOf (q : Nat) : Nat := min Config.activityMax (64 * q)

/-- R148: the filtered activity after a sample of weight `w`. -/
def filtered (activity w : Nat) : Nat := (7 * activity + w + 4) / 8

/-- R149: the up test of channel `c` for the activity `a`. -/
def State.upTest (s : State) (c : Chan) (a : Nat) : Bool :=
  (s.nextHigher (s.mon c).level).isSome && s.upThreshold (s.mon c).level ≤ a

/-- R149: the down test of channel `c` for the activity `a`. -/
def State.downTest (s : State) (c : Chan) (a : Nat) : Bool :=
  1 ≤ (s.mon c).level && a < s.downThreshold (s.mon c).level

/-- R148, R149: a monitor record after a sample that makes the activity `a`, its move apart; `up` and `down`
say whether the two tests pass. -/
def Monitor.sampled (m : Monitor) (a : Nat) (up down : Bool) : Monitor :=
  { m with
    activity := a
    residency := satAdd Config.max16 m.residency 1
    up := if up then satAdd 15 m.up 1 else 0
    down := if down then satAdd 15 m.down 1 else 0 }

/-- R149: the level to which a sample moves channel `c`, `m` being the record with its new counts; the down
test moves it only where the up test did not. -/
def State.sampleTarget (s : State) (m : Monitor) (up down : Bool) : Option Nat :=
  if up && s.hup ≤ m.up then s.nextHigher m.level
  else if down && s.hdown ≤ m.down then some (s.nextLower m.level)
  else none

/-- R148, R149: the sample of channel `c` while the monitor is enabled, with the move that it makes. -/
def State.sample (s : State) (c : Chan) : State :=
  let a := filtered (s.mon c).activity (weightOf (s.chan c).queueLength)
  let m := (s.mon c).sampled a (s.upTest c a) (s.downTest c a)
  if !s.monitorOn then s
  else
    match s.sampleTarget m (s.upTest c a) (s.downTest c a) with
    | some l => (s.setMon c m).moveLevel c l
    | none => s.setMon c m

/-- Whether channel `c` has still a sample to make. -/
def State.setSampleDue (s : State) (c : Chan) (due : Bool) : State :=
  s.setMon c { s.mon c with sampleDue := due }

/-- R107, R148: channel `c` makes the sample that it has still to make. -/
def State.takeLateSample (s : State) (c : Chan) : State :=
  if (s.mon c).sampleDue then (s.setSampleDue c false).sample c else s

/-- R147 to R149: the sample of channel `c` that the tick left to a step of its own, with its move. -/
def execLevelMove (c : Chan) (s : State) : Res := .next (s.takeLateSample c)

/-- R151: the filter of channel `c` restarts at the effective boot level. -/
def State.restartMonitor (s : State) (c : Chan) : State :=
  State.moveLevel
    (s.setMon c { s.mon c with activity := 0, up := 0, down := 0, residency := 0 })
    c s.effectiveBoot

/-- R151. -/
def takeMonitorEnable (_ : Frame) (s : State) : State :=
  State.answer
    (({ s with monitorOn := true }.restartMonitor .A).restartMonitor .B) .ok []

def execMonitorEnable (s : State) : Res := .next (portCode .monitorEnable takeMonitorEnable s)

/-- R152: each channel's level becomes the effective boot level. -/
def State.toBootLevel (s : State) : State :=
  (s.moveLevel .A s.effectiveBoot).moveLevel .B s.effectiveBoot

/-- R152. -/
def takeMonitorDisable (_ : Frame) (s : State) : State :=
  if s.monitorOn then State.answer ({ s with monitorOn := false }.toBootLevel) .ok []
  else s.answer .ok []

def execMonitorDisable (s : State) : Res := .next (portCode .monitorDisable takeMonitorDisable s)

/-- R153: the figures of one channel. -/
def State.monitorBytes (s : State) (c : Chan) : List Byte :=
  beBytes 3 (s.mon c).activity ++ [byteOf (s.mon c).level, byteOf (s.mon c).up, byteOf (s.mon c).down]
    ++ beBytes 2 (s.mon c).residency ++ [byteOf (s.chan c).queueLength]

/-- R153: the figures of MONITOR STATUS. -/
def monitorStatusBytes (s : State) : List Byte :=
  [flagByte s.monitorOn, byteOf s.bootLevel, byteOf s.effectiveBoot, flagByte (s.levelEnabled 1),
   flagByte (s.levelEnabled 2), flagByte (s.levelEnabled 3)] ++ s.monitorBytes .A ++ s.monitorBytes .B

/-- R153. -/
def takeMonitorStatus (_ : Frame) (s : State) : State := s.answer .ok (monitorStatusBytes s)

def execMonitorStatus (s : State) : Res := .next (portCode .monitorStatus takeMonitorStatus s)

end Sys2Proof.Machine
end

