-- ==== Sys2Proof/Machine/Tables.lean ====
section
/-! DEFINITION. TABLE POINTER, TABLE READ and TABLE WRITE (R40, R41), and what a field does when it takes
effect (R24, R42, R62, R119, R150, R152). -/

namespace Sys2Proof.Machine

/-! ## Fields taking effect -/

/-- R62: the fill hold of line `n` recomputed against its threshold. -/
def State.refillLine (s : State) (n : LineNo) : State := s.setLine n ((s.line n).refill (s.threshold n))

/-- R150: the enable of level `l` has gone from on to off; a channel that stands there moves down. -/
def State.leaveLevel (s : State) (c : Chan) (l : Nat) : State :=
  if (s.mon c).level = l then s.moveLevel c (s.nextLower l) else s

/-- R150, R152: level enable `l` takes the value `v`. -/
def State.writeEnable (s : State) (l v : Nat) : State :=
  let old := s.setting (enableAddr l)
  let s1 := s.setSetting (enableAddr l) v
  if old = v then s1
  else if s1.monitorOn then
    if v = 0 then (s1.leaveLevel .A l).leaveLevel .B l else s1
  else s1.toBootLevel

/-- R152: the boot level takes the value `v`; while the monitor is disabled both channels follow. -/
def State.writeBoot (s : State) (v : Nat) : State :=
  let s1 := s.setSetting bootAddr v
  if s1.monitorOn then s1 else s1.toBootLevel

/-- R24: the low watermark takes the value `v`; a high watermark below it is raised to it. -/
def State.writeLow (s : State) (v : Nat) : State :=
  let s1 := s.setSetting lowAddr v
  State.recomputePool (if s1.highMark < v then s1.setSetting highAddr v else s1)

/-- R24: the high watermark takes the value `v`, clamped up to the low watermark. -/
def State.writeHigh (s : State) (v : Nat) : State :=
  State.recomputePool (s.setSetting highAddr (max v s.lowMark))

/-- R119: t1 at address `a` takes the value `v`; a t2 below it is raised to it. -/
def State.writeT1 (s : State) (a v : Nat) : State :=
  let s1 := s.setSetting a v
  if s1.setting (a + 1) < v then s1.setSetting (a + 1) v else s1

/-- R119: t2 at address `a` takes the value `v`, clamped up to t1. -/
def State.writeT2 (s : State) (a v : Nat) : State := s.setSetting a (max v (s.setting (a - 1)))

/-- R76: the FIFO threshold at address `a` takes the value `v`, and its line's fill hold follows. -/
def State.writeThreshold (s : State) (a v : Nat) : State :=
  match lineOfCode ((a - 0x180) / 2) with
  | some n => (s.setSetting a v).refillLine n
  | none => s.setSetting a v

/-- R41, R42: field `f` takes effect with the written value `v`, clamped to its range. -/
def State.writeField (s : State) (f : Field) (v : Nat) : State :=
  let a := f.first
  let v' := f.clamp v
  if a = lowAddr then s.writeLow v'
  else if a = highAddr then s.writeHigh v'
  else if 0x40 ≤ a && a < 0xC0 && a % 16 = 1 then s.writeT1 a v'
  else if 0x40 ≤ a && a < 0xC0 && a % 16 = 2 then s.writeT2 a v'
  else if 0x16E ≤ a && a ≤ 0x170 then s.writeEnable (a - 0x16D) v'
  else if a = bootAddr then s.writeBoot v'
  else if 0x180 ≤ a && a < 0x188 && a % 2 = 0 then s.writeThreshold a v'
  else s.setSetting a v'

/-! ## The pointer and the staging byte -/

/-- R40, R41: the pointer after one byte. -/
def nextPtr (p : Nat) : Nat := (p + 1) % Config.tableSpace

/-- R41: one data byte is applied at the pointer, and the pointer advances. -/
def State.writeTableByte (s : State) (b : Byte) : State :=
  let a := s.tablePtr
  let s1 := { s with tablePtr := nextPtr a }
  match fieldAt a with
  | none => s1
  | some f =>
    if f.width = 1 then s1.writeField f b.toNat
    else if a = f.first then { s1 with staging := some { first := f.first, bytes := [b] } }
    else
      match s.staging with
      | none => s1
      | some st =>
        if st.first = f.first && st.bytes.length = a - f.first then
          if st.bytes.length + 1 = f.width then
            State.writeField { s1 with staging := none } f (beValue (st.bytes ++ [b]))
          else { s1 with staging := some { first := f.first, bytes := st.bytes ++ [b] } }
        else { s1 with staging := none }

/-- R40. -/
def takeTablePointer (f : Frame) (s : State) : State :=
  if f.num 0 2 < Config.tableSpace then
    State.answer { s with tablePtr := f.num 0 2, staging := none } .ok []
  else s.answer .range []

def execTablePointer (w : PortWrite) (s : State) : Res := .next (portRow .tablePointer takeTablePointer w s)

/-- R40: `n` bytes read from address `p` upward, wrapping from 2,047 to 0. -/
def State.tableBytes (s : State) (p n : Nat) : List Byte :=
  (List.range n).map (fun i => s.tableByte ((p + i) % Config.tableSpace))

/-- R40, R41: a taken TABLE READ abandons a partly written field. -/
def takeTableRead (f : Frame) (s : State) : State :=
  if 1 ≤ f.arg 0 && f.arg 0 ≤ 64 then
    State.answer { s with tablePtr := (s.tablePtr + f.arg 0) % Config.tableSpace, staging := none } .ok
      (s.tableBytes s.tablePtr (f.arg 0))
  else s.answer .range []

def execTableRead (w : PortWrite) (s : State) : Res := .next (portRow .tableRead takeTableRead w s)

/-- R41: the data bytes are applied one after another. -/
def takeTableWrite (f : Frame) (s : State) : State :=
  if 1 ≤ f.arg 0 && f.arg 0 ≤ 64 then
    ((f.args.tail).foldl State.writeTableByte s).answer .ok []
  else s.answer .range []

def execTableWrite (w : PortWrite) (s : State) : Res := .next (portRow .tableWrite takeTableWrite w s)

end Sys2Proof.Machine
end

