-- ==== Sys2Proof/Machine/Intake.lean ====
section
/-! DEFINITION. The Intake Lines' steps (R60 to R74), the step of the Admission Unit (R79 to R84) and the
line commands (R75, R76). -/

namespace Sys2Proof.Machine

/-- R60: the byte joins the tail of the FIFO. -/
def Line.receive (l : Line) (b : Byte) (h : Nat) : Line := Line.refill { l with fifo := l.fifo ++ [b] } h

/-- R60, R61: a data byte arrives on line `n`. -/
def State.byteArrives (s : State) (n : LineNo) (b : Byte) : State :=
  if (s.line n).state = .disabled then s
  else if (s.line n).fifo.length < Config.fifoSize then s.setLine n ((s.line n).receive b (s.threshold n))
  else (s.setLine n { s.line n with overflow := true }).abortLine n .fifoOverrun

/-- R60, R61, R3. -/
def execIntakeByte (n : LineNo) (b : Byte) (s : State) : Res :=
  .next (if s.op = some .autoclear then s else s.byteArrives n b)

/-- R64: the line in IDLE whose head byte is taken, `h` being its threshold. -/
def Line.takeIdle (l : Line) (b : Byte) (h : Nat) : Line :=
  if b = Config.start then
    Line.restart { l.takeHead h with state := .header, header := [], sum := 0 }
  else { l.takeHead h with junk := satAdd Config.max16 l.junk 1 }

/-- R64: in IDLE the line examines its head byte. -/
def State.examineIdle (s : State) (n : LineNo) : State :=
  match (s.line n).state, (s.line n).fifo with
  | .idle, b :: _ =>
    if (s.line n).heldForReceipt || s.heldForPool n then s
    else s.setLine n ((s.line n).takeIdle b (s.threshold n))
  | _, _ => s

def execIdleByte (n : LineNo) (s : State) : Res := .next (s.examineIdle n)

/-- R65: the line in HEADER that takes the byte `b`. -/
def Line.takeHeader (l : Line) (b : Byte) (h : Nat) : Line :=
  Line.restart { l.takeHead h with header := l.header ++ [b], sum := l.sum + b }

/-- R65, R67, R79: the line enters LOOKUP and hands its header to the Admission Unit; a refusal by the
checks made at the arrival reaches the line at once. -/
def State.handIn (s : State) (n : LineNo) : State :=
  let h := headerOf (s.line n).header
  match s.arrivalRefusal h with
  | some (reason, peer) => s.setLine n ((s.line n).refusedLine h.len reason peer)
  | none => (s.setLine n { s.line n with state := .lookup }).askLookup (.admission (.line n) h)

/-- R65. -/
def State.takeHeaderByte (s : State) (n : LineNo) : State :=
  match (s.line n).state, (s.line n).fifo with
  | .header, b :: _ =>
    let s1 := s.setLine n ((s.line n).takeHeader b (s.threshold n))
    if (s1.line n).header.length = 5 then s1.handIn n else s1
  | _, _ => s

def execHeaderByte (n : LineNo) (s : State) : Res := .next (s.takeHeaderByte n)

/-- R68: the line in TEXT that takes the byte `b`. -/
def Line.takeText (l : Line) (b : Byte) (h : Nat) : Line :=
  Line.restart
    { l.takeHead h with
      sum := l.sum + b, remaining := l.remaining - 1, state := if l.remaining ≤ 1 then .check else .text }

/-- R68: text byte number k of the page goes to its place in the entry's blocks. -/
def State.takeTextByte (s : State) (n : LineNo) : Res :=
  match (s.line n).state, (s.line n).fifo, (s.line n).bound with
  | .text, b :: _, some t =>
    match s.entry t with
    | none => .next s
    | some e =>
      match s.writeText e.blocks (e.len - (s.line n).remaining) b with
      | none => .fault .noTextUnit
      | some s1 => .next (s1.setLine n ((s.line n).takeText b (s.threshold n)))
  | _, _, _ => .next s

def execTextByte (n : LineNo) (s : State) : Res := s.takeTextByte n

/-- R69: the line in CHECK that takes the check byte `b`, its entry apart. -/
def Line.takeCheck (l : Line) (b : Byte) (h : Nat) : Line :=
  Line.restart { l.takeHead h with sum := l.sum + b, bound := none, state := .idle }

/-- R69: an ACCEPTED receipt is written. -/
def Line.accept (l : Line) (t : Tag) (serial : Nat) : Line :=
  { l with receipt := some (.accepted t serial), accepted := satAdd Config.max16 l.accepted 1 }

/-- R69. -/
def State.takeCheckByte (s : State) (n : LineNo) : State :=
  match (s.line n).state, (s.line n).fifo, (s.line n).bound with
  | .check, b :: _, some t =>
    match s.entry t with
    | none => s
    | some e =>
      let l := (s.line n).takeCheck b (s.threshold n)
      if (s.line n).sum + b = 0 then (s.completeEntry t).setLine n (l.accept t e.serial)
      else (s.endEntry .aborted t).setLine n (l.refuse .badCheck 0)
  | _, _, _ => s

def execCheckByte (n : LineNo) (s : State) : Res := .next (s.takeCheckByte n)

/-- R70: the line in SKIP that discards its head byte. -/
def Line.takeSkip (l : Line) (h : Nat) : Line :=
  Line.restart
    { l.takeHead h with remaining := l.remaining - 1, state := if l.remaining ≤ 1 then .idle else .skip }

/-- R70. -/
def State.takeSkipByte (s : State) (n : LineNo) : State :=
  match (s.line n).state, (s.line n).fifo with
  | .skip, _ :: _ => s.setLine n ((s.line n).takeSkip (s.threshold n))
  | _, _ => s

def execSkipByte (n : LineNo) (s : State) : Res := .next (s.takeSkipByte n)

/-- R71: the tick that the Office Clock left to a step of its own at the line, with its abort at the
timeout. -/
def execIdleTimeout (n : LineNo) (s : State) : Res := .next (s.takeLateTick n)

/-- R74: the slot is emptied by a fetch, or the underflow flag is set. -/
def Line.fetch (l : Line) : Line :=
  match l.receipt with
  | some _ => { l with receipt := none }
  | none => { l with underflow := true }

/-- R74, R169: a fetch of line `n` is answered. -/
def State.fetchReceipt (s : State) (n : LineNo) : State :=
  (s.setLine n (s.line n).fetch).setRcv n (receiptBytes (s.line n).receipt)

/-- R74, R169: a request that arrives while the previous answer is being sent is discarded. -/
def execReceiptFetch (n : LineNo) (sending : Bool) (s : State) : Res :=
  .next
    (if sending then s
     else if s.op = some .autoclear then s.setRcv n (receiptBytes none)
     else s.fetchReceipt n)

/-! ## SUBMIT PAGE frames at the Admission Unit (R97, R98) -/

/-- R97: the outcome of the request is bound to the port's frame. -/
def State.setOutcome (s : State) (f : Frame) (o : SubmitOutcome) : State :=
  s.setFrame (some { f with outcome := o })

/-- R90, R98: a SUBMIT PAGE frame whose last text byte has arrived and whose outcome is known is
complete: an admitted page is launched and its tag and serial given, or the refusal is given. -/
def State.finishSubmit (s : State) : State :=
  match s.port.frame with
  | none => s
  | some f =>
    if argsComplete .submitPage f.args then
      match f.outcome with
      | .admitted t serial =>
        ((s.setFrame none).completeEntry t).answer .ok (tagBytes t ++ [byteOf serial])
      | .refused reason peer =>
        (s.setFrame none).setResult [byteOf (0x40 + reasonCode reason), byteOf peer]
      | .none | .outstanding => s
    else s

/-! ## ADMISSION -/

/-- R67, R97: a refusal at the answer of the lookup reaches its source. -/
def State.refuseSource (s : State) (src : Source) (h : Header) (reason : Reason) : State :=
  match src with
  | .line n => s.setLine n ((s.line n).refusedLine h.len reason 0)
  | .port =>
    match s.port.frame with
    | some f => (s.setOutcome f (.refused reason 0)).finishSubmit
    | none => s

/-- R66, R97: an admission under tag `t` reaches its source. The text bytes that the port has kept are
written into the entry's blocks `bs`. -/
def State.bindSource (s : State) (src : Source) (h : Header) (t : Tag) (serial : Nat) (bs : List Nat) :
    Res :=
  match src with
  | .line n => .next (s.setLine n ((s.line n).admittedLine h.len t))
  | .port =>
    match s.port.frame with
    | none => .next s
    | some f =>
      match (s.setOutcome f (.admitted t serial)).writeTexts bs 0 (f.args.drop 5) with
      | none => .fault .noTextUnit
      | some s1 => .next s1.finishSubmit

/-- R79, R82: the request of `src` is answered. -/
def State.answerRequest (s : State) (src : Source) (h : Header) : Res :=
  match s.verdict h with
  | .refused reason => .next (s.refuseSource src h reason)
  | .admitted i r serial =>
    (s.admitPage i src h r serial).bindSource src h (s.nextTag i) serial
      (s.freeBlocks.take (blocksOf h.len))

/-- R7, R79, R82: the lookup of the oldest request is answered, and the request with it. -/
def execAdmission (s : State) : Res :=
  match s.answerable with
  | some (.admission src h) => s.popLookup.answerRequest src h
  | _ => .next s

/-! ## Line commands (R75, R76) -/

/-- R75: a command on the line of its first argument; RANGE above 3. -/
def onLine (f : Frame) (s : State) (g : LineNo → State → State) : State :=
  match lineOfCode (f.arg 0) with
  | none => s.answer .range []
  | some n => g n s

/-- R75. -/
def takeLineEnable (f : Frame) (s : State) : State :=
  onLine f s fun n s =>
    if (s.line n).state = .disabled then
      (s.setLine n (Line.restart { s.line n with state := .idle })).answer .ok []
    else s.answer .state []

def execLineEnable (w : PortWrite) (s : State) : Res := .next (portRow .lineEnable takeLineEnable w s)

/-- R76. -/
def takeLineDisable (f : Frame) (s : State) : State :=
  onLine f s fun n s =>
    if (s.line n).state = .disabled then s.answer .ok [] else (s.abortLine n .disable).answer .ok []

def execLineDisable (w : PortWrite) (s : State) : Res := .next (portRow .lineDisable takeLineDisable w s)

/-- R76. -/
def takeLineFlush (f : Frame) (s : State) : State :=
  onLine f s fun n s =>
    if (s.line n).state = .disabled then s.answer .state [] else (s.abortLine n .flush).answer .ok []

def execLineFlush (w : PortWrite) (s : State) : Res := .next (portRow .lineFlush takeLineFlush w s)

/-- R75: the line's record. -/
def State.lineBytes (s : State) (n : LineNo) : List Byte :=
  let l := s.line n
  [lineStateByte l.state, byteOf l.fifo.length, flagByte (s.lineHold n), flagByte l.fillHold,
   byteOf (s.heldCause n), byteOf l.timer] ++ beBytes 2 l.remaining
    ++ (match l.bound with
        | some t => tagBytes t
        | none => absentBytes 2)
    ++ [flagByte (s.lookups.any (fun k => isRequestOf (.line n) k.user)), flagByte l.receipt.isSome,
        flagByte l.overflow, flagByte l.underflow]
    ++ beBytes 2 l.junk ++ beBytes 2 l.accepted ++ beBytes 2 l.refused

/-- R75. -/
def takeLineStatus (f : Frame) (s : State) : State := onLine f s fun n s => s.answer .ok (s.lineBytes n)

def execLineStatus (w : PortWrite) (s : State) : Res := .next (portRow .lineStatus takeLineStatus w s)

/-- R75: the items whose mask bit is set are cleared. -/
def Line.clearItems (l : Line) (m : Byte) : Line :=
  { l with
    overflow := l.overflow && !m.getLsbD 0
    underflow := l.underflow && !m.getLsbD 1
    junk := if m.getLsbD 2 then 0 else l.junk
    accepted := if m.getLsbD 3 then 0 else l.accepted
    refused := if m.getLsbD 4 then 0 else l.refused }

/-- R75. -/
def takeLineClear (f : Frame) (s : State) : State :=
  onLine f s fun n s => (s.setLine n ((s.line n).clearItems (f.byte 1))).answer .ok []

def execLineClear (w : PortWrite) (s : State) : Res := .next (portRow .lineClear takeLineClear w s)

end Sys2Proof.Machine
end

