-- ==== Sys2Proof/Machine/Submission.lean ====
section
/-! DEFINITION. The commands of Chapter 5: PAGE STATUS, CANCEL PAGE, SUBMIT PAGE with its argument bytes,
and PURGE TRAFFIC with the steps of its purge; and the Command Port's other argument bytes. -/

namespace Sys2Proof.Machine

/-! ## PAGE STATUS and CANCEL PAGE -/

/-- R94: the position of a tag on an outstanding list, counted from 0. DESIGN CHOICE (log entry 13): where the
tag stands on the list twice, as R124 allows after 256 generations, the position is the earlier one. -/
def positionOf (t : Tag) (ts : List Tag) : Nat := ts.idxOf t

/-- R94: the entry's place: its source in ASSEMBLING, its band in QUEUED, its position on the outstanding
list in ON_AIR; absent on the wheel (log entry 13). -/
def State.placeByte (s : State) (t : Tag) (e : Entry) : Byte :=
  match e.state with
  | .assembling => sourceByte e.source
  | .queued => priorityByte e.priority
  | .onAir => byteOf (positionOf t (s.chan e.chan).outstanding)
  | .waiting | .listening => 0xFF

/-- R50: the figures of the current attempt, absent before the first launch that places the entry. -/
def attemptBytes (a : Option Attempt) : List Byte :=
  match a with
  | none => absentBytes 4
  | some a => maskBytes a.mask ++ [byteOf a.tier, flagByte a.oneWay]

/-- R87, R94: every field of a live entry, then the slot's generation and the entry's place. -/
def State.entryBytes (s : State) (t : Tag) (e : Entry) : List Byte :=
  tagBytes t ++ [pageStateByte e.state] ++ beBytes 3 e.addr
    ++ [chanByte e.chan, byteOf e.serial, priorityByte e.priority, kindByte e.kind, byteOf e.len]
    ++ [byteOf e.blocks.length] ++ e.blocks.flatMap (fun b => beBytes 2 b)
    ++ beBytes 2 e.account ++ [byteOf e.cls, byteOf e.maxAttempts, byteOf e.t1, byteOf e.t2]
    ++ beBytes 2 e.base ++ beBytes 2 e.cap ++ beBytes 2 e.lifetime ++ beBytes 2 e.charge
    ++ [byteOf e.attempts, byteOf e.deferrals, sourceByte e.source]
    ++ beBytes 4 e.accepted ++ beBytes 4 e.deadline ++ attemptBytes e.attempt
    ++ [flagByte e.cancelPending, flagByte e.expirePending]
    ++ optBytes 1 (e.wheel.map (fun w => w.1)) ++ optBytes 1 (e.wheel.map (fun w => w.2))
    ++ [byteOf t.gen, s.placeByte t e]

/-- R94, R95: the answer to a designator whose tag is not live. -/
def State.answerGone (s : State) (t : Tag) : State :=
  if s.tagEnded t then s.answer .ended [endingByte (s.slot t.slot).last] else s.answer .staleTag []

/-- R94. -/
def takePageStatus (f : Frame) (s : State) : State :=
  match s.entry f.page with
  | some e => s.answer .ok (s.entryBytes f.page e)
  | none => s.answerGone f.page

def execPageStatus (s : State) : Res := .next (portCode .pageStatus takePageStatus s)

/-- R95. -/
def takeCancelPage (f : Frame) (s : State) : State :=
  match s.entry f.page with
  | none => s.answerGone f.page
  | some e =>
    match e.state with
    | .assembling => s.answer .state []
    | .waiting | .queued | .listening =>
      (s.endEntry .cancelled f.page).answer .ok (1 :: beBytes 2 (s.refundFor .cancelled e))
    | .onAir =>
      (s.setEntry f.page.slot { e with cancelPending := true }).answer .ok (0 :: beBytes 2 0)

def execCancelPage (s : State) : Res := .next (portCode .cancelPage takeCancelPage s)

/-! ## SUBMIT PAGE (R97 to R99) and the argument bytes of open frames (R161) -/

/-- R97: the fifth header byte hands the request to the Admission Unit. -/
def State.handInPort (s : State) (f : Frame) : State :=
  let h := headerOf f.args
  match s.arrivalRefusal h with
  | some (reason, peer) => s.setOutcome f (.refused reason peer)
  | none => (s.setOutcome f .outstanding).askLookup (.admission .port h)

/-- R98: a text byte of the frame `f`, which it already holds as its last argument: it goes into the bound
entry's blocks, or is kept or ignored. -/
def State.submitText (s : State) (f : Frame) (b : Byte) : Option State :=
  match f.outcome with
  | .admitted t _ =>
    match s.entry t with
    | some e => (s.setFrame (some f)).writeText e.blocks (f.args.length - 6) b
    | none => some (s.setFrame (some f))
  | .none | .outstanding | .refused _ _ => some (s.setFrame (some f))

/-- R97, R98, R165: an argument byte of the SUBMIT PAGE frame that holds it as its last argument. A frame
marked MISQUALIFIED only consumes it, and gives MISQUALIFIED at its last byte. -/
def State.submitByte (s : State) (f : Frame) (b : Byte) : Res :=
  if f.misq then
    .next
      (if argsComplete .submitPage f.args then (s.setFrame none).answer .misqualified []
       else s.setFrame (some f))
  else if f.args.length < 5 then .next (s.setFrame (some f))
  else if f.args.length = 5 then .next (s.handInPort f).finishSubmit
  else
    match s.submitText f b with
    | none => .fault .noTextUnit
    | some s1 => .next s1.finishSubmit

/-- R97, R98: the last text byte of a SUBMIT PAGE frame, or its fifth header byte where the declared
length is 0. -/
def State.submitLast (s : State) (b : Byte) : Res :=
  match s.strobe true true b, s.port.frame with
  | some s0, some f =>
    if f.cmd = .submitPage && argsComplete .submitPage (f.args ++ [b]) then
      s0.submitByte { f with args := f.args ++ [b] } b
    else .next s
  | _, _ => .next s

def execSubmitPage (w : PortWrite) (s : State) : Res :=
  match w with
  | .code => .next (portCode .submitPage (fun _ t => t) s)
  | .last b => s.submitLast b

/-- R161: an argument byte that is not its frame's last is accumulated; with no frame open, or with every
byte of a SUBMIT PAGE frame already received (log entry 16), it is dropped. The last byte of a frame is
a step of the command's own row. -/
def execArgumentByte (b : Byte) (s : State) : Res :=
  match s.strobe true true b with
  | none => .next s
  | some s0 =>
    match s.port.frame with
    | none => .next s0
    | some f =>
      if argsComplete f.cmd (f.args ++ [b]) then .next s
      else if argsComplete f.cmd f.args then .next s0
      else if f.cmd = .submitPage then s0.submitByte { f with args := f.args ++ [b] } b
      else .next (s0.setFrame (some { f with args := f.args ++ [b] }))

/-! ## PURGE TRAFFIC (R100, R101, R77) -/

/-- R100. -/
def takePurgeTraffic (_ : Frame) (s : State) : State := (s.answer .ok []).beginOp (.purge 0)

def execPurgeTraffic (s : State) : Res := .next (portCode .purgeTraffic takePurgeTraffic s)

/-- R100: how the purge ends an entry. -/
def purgeEnding (st : PageState) : Ending :=
  match st with
  | .assembling => .aborted
  | .waiting | .queued | .onAir | .listening => .cancelled

/-- R77, R100: the purge ends the entry of tag `t`; the line assembling it goes to SKIP. -/
def State.purgeEntry (s : State) (t : Tag) (e : Entry) : State :=
  let s1 := s.endEntry (purgeEnding e.state) t
  match e.state, s.boundLine t with
  | .assembling, some n => s1.setLine n (s.line n).purged
  | _, _ => s1

/-- R100: the purge reaches slot `i`. -/
def State.purgeIndex (s : State) (i : Nat) : State :=
  match (s.slot i).entry with
  | none => s
  | some e => s.purgeEntry { slot := i, gen := (s.slot i).gen } e

/-- R100: the purge takes its next slot; a free one is passed over. -/
def execPurgeSlot (s : State) : Res :=
  match s.op with
  | some (.purge i) =>
    .next
      (if i < Config.pageSlots then { s.purgeIndex i with op := some (.purge (i + 1)) } else s)
  | _ => .next s

/-- R101: the purge has passed slot 255 and completes. -/
def execPurgeComplete (s : State) : Res :=
  match s.op with
  | some (.purge i) => .next (if Config.pageSlots ≤ i then s.completeOp else s)
  | _ => .next s

end Sys2Proof.Machine
end

