-- ==== Sys2Proof/Machine/Wheel.lean ====
section
/-! DEFINITION. The Office Clock and the Retry Wheel (Chapter 6): the tick, the visits, the launch, and
SET CLOCK and READ CLOCK. -/

namespace Sys2Proof.Machine

/-! ## The tick -/

/-- R107: the head advances and the visit of its new slot begins. -/
def State.advanceHead (s : State) : State :=
  let h := (s.head + 1) % Config.wheelSlots
  { s with
    head := h
    visits := if (s.wheelList h).isEmpty then s.visits
              else s.visits ++ [{ slot := h, todo := s.wheelList h }] }

/-- R71, R107, R148: a counted tick reaches one of the blocks beside the visit: it is taken at once, or left
to the part's own row. A tick that arrives while the monitor enable flag is off leaves no sample to make. -/
def State.tickReaches (late : List TickPart) (s : State) (p : TickPart) : State :=
  match p with
  | .line n => if p ∈ late then s.setTickDue n true else s.tickLine n
  | .channel c => if p ∈ late && s.monitorOn then s.setSampleDue c true else s.sample c

/-- What takes a tick beside the Office Clock, in the order in which one step takes it (log entry 5). -/
def tickParts : List TickPart := [.line 0, .line 1, .line 2, .line 3, .channel .A, .channel .B]

/-- DESIGN CHOICE (log entry 5): what has not taken the tick before this one takes it now, lines 0 to 3 and
then channels A and B. The rows of the late parts, placed before this tick, give every other order. -/
def State.takeLate (s : State) : State :=
  (((((s.takeLateTick 0).takeLateTick 1).takeLateTick 2).takeLateTick 3).takeLateSample .A).takeLateSample .B

/-- R102, R107: the office time and the head after a tick, with the visit of the new slot begun. -/
def State.advanceClock (s : State) : State :=
  State.advanceHead { s with time := satAdd Config.timeMax s.time 1, lateTicks := s.lateTicks.tail }

/-- R102, R107, R148, R71: a counted tick. R71, R107 and R148 put the aborts of several lines, the samples
and the visit of one tick in no order. DESIGN CHOICE (log entry 5): those taken in this step are taken in
the order of `tickParts`, before the visit's entries; `lateTicks` leaves any of them to the queue's order. -/
def State.countTick (s : State) : State :=
  tickParts.foldl (State.tickReaches (s.lateTicks.headD [])) s.takeLate.advanceClock

/-- R102, R3: a tick that arrives while the autoclear is in flight is not counted. -/
def execTick (s : State) : Res := .next (if s.op = some .autoclear then s else s.countTick)

/-! ## Visits (R107, R108) -/

/-- R107: the tag that the visit of wheel slot `w` takes next. -/
def State.visited (s : State) (w : Nat) : Option Tag :=
  match s.visits.find? (fun v => v.slot = w) with
  | some v => v.todo.head?
  | none => none

/-- The visit of slot `w` has examined its next tag. -/
def visitsPast (vs : List Visit) (w : Nat) : List Visit :=
  match vs with
  | [] => []
  | v :: rest =>
    if v.slot = w then
      if v.todo.tail.isEmpty then rest else { v with todo := v.todo.tail } :: rest
    else v :: visitsPast rest w

def State.passVisit (s : State) (w : Nat) : State := { s with visits := visitsPast s.visits w }

/-- R108, step 1: the office time is at or past the entry's deadline. -/
def State.deadlineReached (s : State) (e : Entry) : Bool := e.deadline ≤ s.time

/-- R108: the rounds of an entry on the wheel. -/
def Entry.rounds (e : Entry) : Nat := (e.wheel.map (fun w => w.2)).getD 0

/-- R108, step 2: rounds fall by 1. -/
def Entry.fallRound (e : Entry) : Entry := { e with wheel := e.wheel.map (fun w => (w.1, w.2 - 1)) }

/-- R108: the window of a due LISTENING entry has run out: no launch of it is asked for yet. -/
def State.windowEnded (s : State) (t : Tag) (e : Entry) : Bool :=
  e.rounds = 0 && e.state = .listening && !s.launchAsked t

/-- R108: the visit of slot `w` examines its next entry before its deadline: its rounds fall, or a WAITING
entry is due and its launch is asked for, or an entry whose launch is asked for already is passed over.
A tag that names no live entry is passed. -/
def State.wheelVisit (s : State) (w : Nat) : State :=
  match s.visited w with
  | none => s
  | some t =>
    match s.entry t with
    | none => s.passVisit w
    | some e =>
      if s.deadlineReached e || s.windowEnded t e then s
      else if 0 < e.rounds then (s.passVisit w).setEntry t.slot e.fallRound
      else if s.launchAsked t then s.passVisit w
      else (s.passVisit w).askLaunch t

def execWheelVisit (w : Nat) (s : State) : Res := .next (s.wheelVisit w)

/-- R108, step 1: the visit of slot `w` finds its next entry's deadline reached and ends it EXPIRED. -/
def State.expireVisited (s : State) (w : Nat) : State :=
  match s.visited w with
  | none => s
  | some t =>
    match s.entry t with
    | none => s
    | some e => if s.deadlineReached e then (s.passVisit w).endEntry .expired t else s

def execDeadlineExpired (w : Nat) (s : State) : Res := .next (s.expireVisited w)

/-- R108, step 3, R116: the visit of slot `w` finds the window of a LISTENING entry ended: at max attempts
it ends EXPIRED, and otherwise its launch is asked for. -/
def State.endWindow (s : State) (w : Nat) : State :=
  match s.visited w with
  | none => s
  | some t =>
    match s.entry t with
    | none => s
    | some e =>
      if s.windowEnded t e && !s.deadlineReached e then
        if e.attempts = e.maxAttempts then (s.passVisit w).endEntry .expired t
        else (s.passVisit w).askLaunch t
      else s

def execWindowEnd (w : Nat) (s : State) : Res := .next (s.endWindow w)

/-! ## Launch (R110 to R115) -/

/-- R111: the tier of attempt `a`. -/
def tierOf (a t1 t2 : Nat) (oneWay : Bool) : Nat :=
  if oneWay then 1 else if a ≤ t1 then 1 else if a ≤ t2 then 2 else 3

/-- R112: a tier-3 choice is demoted at level 3. -/
def demoted (tier level : Nat) : Nat := if tier = 3 && level = 3 then 2 else tier

/-- R113: zone `z` alone. -/
def zoneBit (z : Nat) : ZoneMask := 1 <<< z

/-- R113: the zone mask of an attempt of this tier on channel `c` for current zone `z`. -/
def State.zoneMask (s : State) (c : Chan) (tier z : Nat) : ZoneMask :=
  if tier = 1 then zoneBit z
  else if tier = 2 then zoneBit z ||| s.neighbourMask c z
  else if s.wideMask c = 0 then zoneBit z
  else s.wideMask c

/-- R111 to R113: the attempt that a launch of `e` for record `r` prepares. -/
def State.attemptFor (s : State) (e : Entry) (r : Subscriber) : Attempt :=
  let tier := demoted (tierOf (e.attempts + 1) e.t1 e.t2 r.oneWay) (s.mon e.chan).level
  { mask := s.zoneMask e.chan tier r.zone, tier := tier, oneWay := r.oneWay }

/-- R115: the launch is blocked. -/
def State.launchBlocked (s : State) (c : Chan) : Bool :=
  (s.chan c).state ≠ .opened || Config.queueLimit ≤ (s.chan c).queueLength

/-- R123: a tag joins the tail of the band of its priority. -/
def Channel.enqueue (ch : Channel) (p : Priority) (t : Tag) : Channel :=
  match p with
  | .urgent => { ch with urgent := ch.urgent ++ [t] }
  | .normal => { ch with normal := ch.normal ++ [t] }

/-- R114: the launch places the entry on its air queue. -/
def State.placeLaunch (s : State) (t : Tag) (e : Entry) (a : Attempt) : State :=
  let s1 := (s.leaveSlot t e).unbindLines t
  let s2 := s1.setChan e.chan ((s1.chan e.chan).enqueue e.priority t)
  s2.setEntry t.slot { e with state := .queued, attempt := some a, wheel := none }

/-- R115: a blocked launch schedules the entry WAITING one second ahead and counts a deferral. -/
def State.deferLaunch (s : State) (t : Tag) (e : Entry) : State :=
  s.schedule t { e with deferrals := satAdd 255 e.deferrals 1 } .waiting 1

/-- R110 to R115: the launch of `t`, its lookup answered. -/
def State.launch (s : State) (t : Tag) : State :=
  match s.entry t with
  | none => s
  | some e =>
    match s.record e.addr with
    | none => s
    | some r => if s.launchBlocked e.chan then s.deferLaunch t e else s.placeLaunch t e (s.attemptFor e r)

/-- R7, R110: the lookup of the oldest launch is answered, and the launch is made. -/
def execLaunch (s : State) : Res :=
  match s.answerable with
  | some (.launch t) => .next (s.popLookup.launch t)
  | _ => .next s

/-! ## SET CLOCK and READ CLOCK (R103) -/

/-- R103. -/
def takeSetClock (f : Frame) (s : State) : State := State.answer { s with time := f.num 0 4 } .ok []

def execSetClock (w : PortWrite) (s : State) : Res := .next (portRow .setClock takeSetClock w s)

/-- R103. -/
def takeReadClock (_ : Frame) (s : State) : State :=
  s.answer .ok (beBytes 4 s.time ++ [byteOf s.head] ++ beBytes 2 (s.countState .waiting)
    ++ beBytes 2 (s.countState .listening))

def execReadClock (s : State) : Res := .next (portCode .readClock takeReadClock s)

end Sys2Proof.Machine
end

