-- ==== Sys2Proof/Machine/Channels.lean ====
section
/-! DEFINITION. The Air Channels and the Encoder Link (Chapter 7): pulls, reports, and the channel
commands. -/

namespace Sys2Proof.Machine

/-! ## The pull (R125 to R127) -/

/-- R127: the entry of a listed tag is live and ON_AIR on channel `c` with its deadline reached. DESIGN
CHOICE (log entry 30): an entry ON_AIR on the other channel whose tag stands in this list by a repeat of
its generation is left to its own channel, as R127's first lines say; R125 names every listed tag. -/
def State.overdueOnAir (s : State) (c : Chan) (e : Entry) : Bool :=
  e.state = .onAir && e.chan = c && s.deadlineReached e

/-- R127: expire-pending is set on the entry of tag `t` when it is ON_AIR past its deadline. -/
def State.markExpired (c : Chan) (s : State) (t : Tag) : State :=
  match s.entry t with
  | some e => if s.overdueOnAir c e then s.setEntry t.slot { e with expirePending := true } else s
  | none => s

/-- R125, R127: before the answer, every listed tag of channel `c` is examined. -/
def State.markOutstanding (s : State) (c : Chan) : State :=
  (s.chan c).outstanding.foldl (State.markExpired c) s

/-- R125: a queued tag does not name an entry that a pull may serve: its deadline is reached. -/
def State.queuedExpired (s : State) (t : Tag) : Bool :=
  match s.entry t with
  | some e => s.deadlineReached e
  | none => true

/-- R125: the tags of the queue in the order in which a pull examines them. -/
def Channel.queue (ch : Channel) : List Tag := ch.urgent ++ ch.normal

/-- R125: an examined entry past its deadline ends EXPIRED and its tag leaves its band. -/
def State.expireQueued (c : Chan) (s : State) (t : Tag) : State := (s.endEntry .expired t).leaveBand t c

/-- R125: the entries that the pull ends before it serves one or runs out of queue. -/
def State.expireHeads (s : State) (c : Chan) : State :=
  ((s.chan c).queue.takeWhile s.queuedExpired).foldl (State.expireQueued c) s

/-- R125, rows 3 and 4: the answer to a pull that finds no entry to serve. -/
def State.answerEmpty (s : State) (c : Chan) : State :=
  match (s.chan c).state with
  | .draining =>
    (State.raise (s.setChan c { s.chan c with state := .closed, drained := true }) .drained).setEnc c
      (answerBytes .drained)
  | .opened | .closed => s.setEnc c (answerBytes .idle)

/-- R125: the entry of tag `t` is served: it leaves its band, goes ON_AIR, and its tag joins the
outstanding list. -/
def State.putOnAir (s : State) (c : Chan) (t : Tag) (e : Entry) : State :=
  let s1 := s.leaveBand t c
  let s2 := s1.setChan c { s1.chan c with outstanding := (s1.chan c).outstanding ++ [t] }
  s2.setEntry t.slot { e with state := .onAir }

/-- R125: the answer PAGE with the descriptor of the entry. -/
def State.servePage (s : State) (c : Chan) (t : Tag) (e : Entry) : Res :=
  match s.readTexts e.blocks e.len with
  | none => .fault .unwrittenText
  | some cs => .next ((s.putOnAir c t e).setEnc c (pageBytes t e cs))

/-- R125, row 5 and what follows it: the queue is examined from its head. -/
def State.pullQueue (s : State) (c : Chan) : Res :=
  let s1 := s.expireHeads c
  match (s1.chan c).queue with
  | [] => .next (s1.answerEmpty c)
  | t :: _ =>
    match s1.entry t with
    | some e => s1.servePage c t e
    | none => .next s1

/-- R125: the answer to a pull, by the first row whose condition holds. -/
def State.answerPull (s : State) (c : Chan) : Res :=
  if (s.chan c).state = .closed then .next (s.setEnc c (answerBytes .stalled))
  else if Config.outstandingLimit ≤ (s.chan c).outstanding.length then
    .next (s.setEnc c (answerBytes .window))
  else s.pullQueue c

/-- R125, R3, R170: a pull. One that arrives while the answer to the previous pull is being sent is
discarded; during the autoclear the answer is STALLED. -/
def execPull (c : Chan) (sending : Bool) (s : State) : Res :=
  if sending then .next s
  else if s.op = some .autoclear then .next (s.setEnc c (answerBytes .stalled))
  else (s.markOutstanding c).answerPull c

/-! ## Reports (R128 to R130) -/

/-- R124: a reported tag leaves the outstanding list at its earliest occurrence. -/
def State.unlist (s : State) (c : Chan) (t : Tag) : State :=
  s.setChan c { s.chan c with outstanding := (s.chan c).outstanding.erase t }

/-- R130: a stray report is counted. -/
def State.countStray (s : State) (c : Chan) : State :=
  s.setChan c { s.chan c with stray := satAdd Config.max16 (s.chan c).stray 1 }

/-- R128, R129: the entry that a report of tag `t` on channel `c` reaches: the tag is listed and names a
live entry ON_AIR on the channel. -/
def State.reported (s : State) (c : Chan) (t : Tag) : Option Entry :=
  if t ∈ (s.chan c).outstanding then
    match s.entry t with
    | some e => if e.state = .onAir && e.chan = c then some e else none
    | none => none
  else none

/-- R127: the entry ends EXPIRED at its report. -/
def State.expiresAtReport (s : State) (e : Entry) : Bool := e.expirePending || s.deadlineReached e

/-- R128, step 4: what becomes of the entry `e`, whose attempts the SENT has counted. -/
def State.afterSent (s : State) (t : Tag) (e : Entry) : State :=
  if e.cancelPending then s.endEntry .cancelled t
  else if s.expiresAtReport e then s.endEntry .expired t
  else if (e.attempt.map (fun a => a.oneWay)).getD false && e.attempts = e.maxAttempts then
    s.endEntry .sentOnly t
  else s.schedule t e .listening (s.windowFor e)

/-- R128: a SENT of the live ON_AIR entry `e`. -/
def State.sentLive (s : State) (t : Tag) (e : Entry) : State :=
  let e1 := { e with attempts := e.attempts + 1 }
  let s1 := s.setEntry t.slot e1
  (s1.sentEvent e.account e1.attempts (s.surchargeFor e)).afterSent t e1

/-- R128, R130: a SENT report. -/
def State.reportSent (s : State) (c : Chan) (t : Tag) : State :=
  match s.reported c t with
  | some e => (s.unlist c t).sentLive t e
  | none => (s.unlist c t).countStray c

/-- R128, R3: a report during the autoclear is not counted. -/
def execSent (c : Chan) (slot gen : Byte) (s : State) : Res :=
  .next (if s.op = some .autoclear then s else s.reportSent c (tagOf slot gen))

/-- R129: a FAILED of the live ON_AIR entry `e`. -/
def State.failedLive (s : State) (t : Tag) (e : Entry) : State :=
  if e.cancelPending then s.endEntry .cancelled t
  else if s.expiresAtReport e then s.endEntry .expired t
  else s.schedule t e .waiting 1

/-- R129, R130: a FAILED report raises AIR_FAULT whether or not its tag names a live entry. -/
def State.reportFailed (s : State) (c : Chan) (t : Tag) : State :=
  match s.reported c t with
  | some e => ((s.raise .airFault).unlist c t).failedLive t e
  | none => ((s.raise .airFault).unlist c t).countStray c

def execFailed (c : Chan) (slot gen : Byte) (s : State) : Res :=
  .next (if s.op = some .autoclear then s else s.reportFailed c (tagOf slot gen))

/-- R170: a report whose kind is neither SENT nor FAILED is counted stray and changes nothing else. -/
def execUnknownReportKind (c : Chan) (kind _slot _gen : Byte) (s : State) : Res :=
  .next
    (if kind = 0x01 || kind = 0x02 || s.op = some .autoclear then s else s.countStray c)

/-! ## Channel commands (R132, R133) -/

/-- R132: a command on the channel of its argument; RANGE for another value. -/
def onChan (f : Frame) (s : State) (g : Chan → State → State) : State :=
  match chanOfCode (f.arg 0) with
  | none => s.answer .range []
  | some c => g c s

/-- R132: a taken state command. -/
def State.setChanState (s : State) (c : Chan) (st : ChanState) : State :=
  s.setChan c { s.chan c with state := st, drained := false }

/-- R132. -/
def takeChannelOpen (f : Frame) (s : State) : State :=
  onChan f s fun c s => (s.setChanState c .opened).answer .ok []

def execChannelOpen (w : PortWrite) (s : State) : Res := .next (portRow .channelOpen takeChannelOpen w s)

/-- R132. -/
def takeChannelDrain (f : Frame) (s : State) : State :=
  onChan f s fun c s =>
    if (s.chan c).state = .closed then s.answer .state []
    else (s.setChanState c .draining).answer .ok []

def execChannelDrain (w : PortWrite) (s : State) : Res := .next (portRow .channelDrain takeChannelDrain w s)

/-- R132: a QUEUED entry returned to the wheel by CHANNEL CLOSE. -/
def State.returnQueued (s : State) (t : Tag) : State :=
  match s.entry t with
  | some e => s.schedule t e .waiting 1
  | none => s

/-- R132: the bands are emptied, URGENT first from head to tail, and each entry is returned. -/
def State.returnQueue (s : State) (c : Chan) : State :=
  (s.chan c).queue.foldl State.returnQueued (s.setChan c { s.chan c with urgent := [], normal := [] })

/-- R132. -/
def takeChannelClose (f : Frame) (s : State) : State :=
  onChan f s fun c s => ((s.returnQueue c).setChanState c .closed).answer .ok []

def execChannelClose (w : PortWrite) (s : State) : Res := .next (portRow .channelClose takeChannelClose w s)

/-- R133: the channel record. DESIGN CHOICE (log entry 29): of the two bands' counts URGENT comes first, as
in the record of R121; R133 gives them no order. -/
def channelBytes (ch : Channel) : List Byte :=
  [chanStateByte ch.state, flagByte ch.drained, byteOf ch.urgent.length, byteOf ch.normal.length,
   byteOf ch.outstanding.length] ++ ch.outstanding.flatMap tagBytes ++ beBytes 2 ch.stray

/-- R133. -/
def takeChannelStatus (f : Frame) (s : State) : State :=
  onChan f s fun c s => s.answer .ok (channelBytes (s.chan c))

def execChannelStatus (w : PortWrite) (s : State) : Res :=
  .next (portRow .channelStatus takeChannelStatus w s)

/-- R133. -/
def takeChannelClear (f : Frame) (s : State) : State :=
  onChan f s fun c s => (s.setChan c { s.chan c with stray := 0 }).answer .ok []

def execChannelClear (w : PortWrite) (s : State) : Res := .next (portRow .channelClear takeChannelClear w s)

end Sys2Proof.Machine
end

