-- ==== Sys2Proof/Machine/AnswerBack.lean ====
section
/-! DEFINITION. The Answer-Back Unit (Chapter 8): the arrival of frames, the service of one frame at a
time, roaming, matching and its effects, and the answer-back commands. -/

namespace Sys2Proof.Machine

/-! ## Arrival (R135, R171) -/

/-- R171: the frame in the five bytes `bs`. -/
def frameOf (bs : List Byte) : AbFrame :=
  { kind := bs.getD 0 0
    addr := addrOf (bs.getD 1 0) (bs.getD 2 0) (bs.getD 3 0)
    serial := (bs.getD 4 0 &&& 0x3F).toNat }

/-- R135: a frame arrives at a slot. -/
def AbSlot.arrive (a : AbSlot) (f : AbFrame) : AbSlot :=
  match a.frame with
  | none => { a with frame := some f }
  | some _ => { a with dropped := satAdd Config.max16 a.dropped 1 }

/-- R135, R171: an unmarked byte of a frame: the fifth makes the frame arrive, which during the autoclear
is discarded. -/
def AbSlot.receive (a : AbSlot) (b : Byte) (autoclear : Bool) : AbSlot :=
  if a.rx.length < 4 then { a with rx := a.rx ++ [b] }
  else if autoclear then { a with rx := [] }
  else AbSlot.arrive { a with rx := [] } (frameOf (a.rx ++ [b]))

/-- R171: a byte on ABn-D. A marked byte with no frame begun begins one; an unmarked byte with no frame
begun is ignored. A marked byte with a frame begun is a step of MARKED_BYTE_RESTART. -/
def execAnswerBackFrame (n : LineNo) (marked : Bool) (b : Byte) (s : State) : Res :=
  .next
    (match (s.abSlot n).rx, marked with
      | [], true => s.setAbSlot n { s.abSlot n with rx := [b] }
      | [], false => s
      | _ :: _, true => s
      | _ :: _, false => s.setAbSlot n ((s.abSlot n).receive b (s.op = some .autoclear)))

/-- R171: a marked byte before the fifth byte of a frame discards the bytes received and begins a new
frame. -/
def execMarkedByteRestart (n : LineNo) (b : Byte) (s : State) : Res :=
  .next
    (match (s.abSlot n).rx with
      | [] => s
      | _ :: _ => s.setAbSlot n { s.abSlot n with rx := [b] })

/-! ## Service (R136, R137) -/

/-- R136: a service is in progress. -/
def State.serving (s : State) : Bool :=
  s.lookups.any (fun l =>
    match l.user with
    | .service _ => true
    | _ => false)

/-- R136: the first full slot after the one that the pointer names, wrapping from 3 to 0. -/
def State.nextFull (s : State) : Option LineNo :=
  ([1, 2, 3, 4] : List Nat).findSome? (fun k =>
    match lineOfCode ((s.servicePtr.val + k) % 4) with
    | some n => if (s.abSlot n).frame.isSome then some n else none
    | none => none)

/-- R136, R137: with no service in progress, the unit looks for a full slot and begins its service: the
pointer names the slot, and the service makes its lookup. -/
def State.beginService (s : State) : State :=
  match s.nextFull with
  | some n => State.askLookup { s with servicePtr := n } (.service n)
  | none => s

/-- R136: the unit, idle until now, begins a service (log entry 34). -/
def execAnswerBackService (s : State) : Res := .next (if s.serving then s else s.beginService)

/-- R142: the three kinds of answer-back; another code is an unknown kind. -/
inductive AbKind where
  | received | declined | register | unknown
  deriving DecidableEq, Repr

def abKindOf (b : Byte) : AbKind :=
  if b = 0x01 then .received else if b = 0x02 then .declined else if b = 0x03 then .register else .unknown

/-- R139: the record of a subscriber after a roaming update. -/
def Subscriber.roam (r : Subscriber) (zone time : Nat) (m : MarkMode) : Subscriber :=
  { r with zone := zone, lastHeard := some time, mark := roamMark m r.mark }

/-- R139: the roaming update of record `r` by the frame of slot `n`. -/
def State.roamingUpdate (s : State) (n : LineNo) (r : Subscriber) : State :=
  let s1 := s.updateRecord r.addr (fun q => q.roam (s.receiverZone n) s.time s.markMode)
  if s.receiverChan n = r.home then s1
  else s1.setAbSlot n { s1.abSlot n with cross := satAdd Config.max16 (s1.abSlot n).cross 1 }

/-- R140: an entry is one that an answer-back may match. -/
def Entry.matchable (e : Entry) : Bool :=
  match e.state with
  | .assembling => false
  | .waiting | .queued | .listening => 1 ≤ e.attempts
  | .onAir => true

/-- R140: the tag and entry that a frame for `addr` and `serial` matches. -/
def State.matchEntry (s : State) (addr serial : Nat) : Option (Tag × Entry) :=
  slotIndices.findSome? (fun i =>
    match (s.slot i).entry with
    | some e =>
      if e.addr = addr && e.serial = serial && e.matchable then
        some ({ slot := i, gen := (s.slot i).gen }, e)
      else none
    | none => none)

/-- R142: the slot's stray counter rises. -/
def State.countAbStray (s : State) (n : LineNo) : State :=
  s.setAbSlot n { s.abSlot n with stray := satAdd Config.max16 (s.abSlot n).stray 1 }

/-- R142: a matched DECLINED acts on an entry in LISTENING only. -/
def State.declineEntry (s : State) (t : Tag) (e : Entry) : State :=
  match e.state with
  | .listening =>
    if e.attempts = e.maxAttempts then s.endEntry .expired t
    else (s.dropLookup (isLaunchOf t)).schedule t e .listening (s.windowFor e)
  | .assembling | .waiting | .queued | .onAir => s

/-- R140 to R142: the match of a RECEIVED or DECLINED and its effect, or the stray count; what becomes of
a REGISTER (`found`: its lookup found a record) and of an unknown kind. -/
def State.disposeFrame (s : State) (n : LineNo) (f : AbFrame) (found : Bool) : State :=
  match abKindOf f.kind, s.matchEntry f.addr f.serial with
  | .received, some (t, _) => s.endEntry .delivered t
  | .declined, some (t, e) => s.declineEntry t e
  | .received, none | .declined, none => s.countAbStray n
  | .register, _ => if found then s else s.countAbStray n
  | .unknown, _ => s.countAbStray n

/-- R137, step 1: the roaming update, made for the three kinds when the lookup finds a record. -/
def State.roamFor (s : State) (n : LineNo) (f : AbFrame) : State :=
  match s.record f.addr, abKindOf f.kind with
  | some r, .received | some r, .declined | some r, .register => s.roamingUpdate n r
  | _, _ => s

/-- R137: the service of slot `n`, its lookup answered: the roaming update, the match and its effect, and
the slot emptied. -/
def State.serveSlot (s : State) (n : LineNo) : State :=
  match (s.abSlot n).frame with
  | none => s
  | some f =>
    let s1 := (s.roamFor n f).disposeFrame n f (s.record f.addr).isSome
    s1.setAbSlot n { s1.abSlot n with frame := none }

/-- R7, R137, R136: the lookup of the service is answered, which ends the service, and the unit looks again
at once, against the slots full at that moment. -/
def execServiceAnswer (s : State) : Res :=
  match s.answerable with
  | some (.service n) => .next (s.popLookup.serveSlot n).beginService
  | _ => .next s

/-! ## Answer-back commands (R144) -/

/-- R144: a command on the slot of its first argument; RANGE above 3. -/
def onSlot (f : Frame) (s : State) (g : LineNo → State → State) : State :=
  match lineOfCode (f.arg 0) with
  | none => s.answer .range []
  | some n => g n s

/-- R144, R168: the frame of a slot, or the no-frame form. DESIGN CHOICE (log entry 33): the kind byte is the
one received; for a kind that R142 calls unknown R168 gives no code. -/
def abFrameBytes (f : Option AbFrame) : List Byte :=
  match f with
  | none => absentBytes 5
  | some f => beBytes 3 f.addr ++ [byteOf f.serial, f.kind]

/-- R144: the figures of ANSWER-BACK STATUS. -/
def State.abBytes (s : State) (n : LineNo) : List Byte :=
  let a := s.abSlot n
  [flagByte a.frame.isSome, serveStateByte (s.serveState n)] ++ abFrameBytes a.frame
    ++ [chanByte (s.receiverChan n), byteOf (s.receiverZone n)]
    ++ beBytes 2 a.stray ++ beBytes 2 a.cross ++ beBytes 2 a.dropped ++ [byteOf s.servicePtr.val]

/-- R144. -/
def takeAnswerBackStatus (f : Frame) (s : State) : State :=
  onSlot f s fun n s => s.answer .ok (s.abBytes n)

def execAnswerBackStatus (w : PortWrite) (s : State) : Res :=
  .next (portRow .answerBackStatus takeAnswerBackStatus w s)

/-- R144: the counters whose mask bit is set become 0. -/
def AbSlot.clearItems (a : AbSlot) (m : Byte) : AbSlot :=
  { a with
    stray := if m.getLsbD 0 then 0 else a.stray
    cross := if m.getLsbD 1 then 0 else a.cross
    dropped := if m.getLsbD 2 then 0 else a.dropped }

/-- R144. -/
def takeAnswerBackClear (f : Frame) (s : State) : State :=
  onSlot f s fun n s => (s.setAbSlot n ((s.abSlot n).clearItems (f.byte 1))).answer .ok []

def execAnswerBackClear (w : PortWrite) (s : State) : Res :=
  .next (portRow .answerBackClear takeAnswerBackClear w s)

end Sys2Proof.Machine
end

