-- ==== Sys2Proof/Machine/PortSteps.lean ====
section
/-! DEFINITION. The steps of the Command Port itself (R160 to R167) and the power-on reset (R3): reads,
nibbles, unknown codes, designators, the port width, the notice commands, and the two resets. -/

namespace Sys2Proof.Machine

/-! ## Reads and nibbles (R160, R163) -/

/-- R160, R163: the byte that a read forms: the next result byte, or the status byte. -/
def State.readByte (s : State) (cd : Bool) : Byte :=
  if cd then s.port.result.getD s.port.readIdx 0 else s.statusByte

/-- R163: a result byte has been read: the index advances, and result ready is cleared by the last
byte. -/
def Port.advance (p : Port) : Port :=
  if p.readIdx < p.result.length then
    { p with readIdx := p.readIdx + 1, ready := p.ready && p.readIdx + 1 < p.result.length }
  else p

/-- R160: D7..D0 driven by a read strobe. -/
def State.drive (s : State) (b : Byte) : State := { s with out := { s.out with data := b } }

/-- R163: a completed read; only one of the result changes the buffer's index and ready flag. -/
def State.completeRead (s : State) (cd : Bool) : State :=
  if cd then { s with port := s.port.advance } else s

/-- R160: a nibble on D7..D4, D3..D0 driven 0. -/
def nibbleByte (v : BitVec 4) : Byte := (v.setWidth 8) <<< 4

/-- R160: the high and the low nibble of a byte. -/
def highNibble (b : Byte) : BitVec 4 := (b >>> 4).setWidth 4
def lowNibble (b : Byte) : BitVec 4 := b.setWidth 4

/-- R160: the nibble pending when it is a read's with this CD. -/
def Port.readPending (p : Port) (cd : Bool) : Option (BitVec 4) :=
  match p.nibble with
  | some n => if n.write = false && n.cd = cd then some n.value else none
  | none => none

/-- R160, R163: a read of the result buffer (CD 1) or of the status byte (CD 0): in 8-bit mode the one
strobe, in 4-bit mode the second of its pair, which returns the low nibble of the byte formed at the
first. -/
def execResultRead (cd : Bool) (s : State) : Res :=
  .next
    (if s.port.fourBit then
      match s.port.readPending cd with
      | some v =>
        State.completeRead ({ s with port := { s.port with nibble := none } }.drive (nibbleByte v)) cd
      | none => s
     else (s.drive (s.readByte cd)).completeRead cd)

/-- R160: a strobe of this direction and CD would complete the pair that is begun. -/
def Port.completesPair (p : Port) (write cd : Bool) : Bool :=
  match p.nibble with
  | some n => n.write = write && n.cd = cd
  | none => false

/-- R160: the first strobe of a pair in 4-bit mode. A pending nibble of another direction or CD is
discarded. A write keeps its nibble; a read forms its byte, drives the high nibble and keeps the low. -/
def execPendingNibble (write cd : Bool) (v : BitVec 4) (s : State) : Res :=
  .next
    (if s.port.fourBit && !s.port.completesPair write cd then
      if write then { s with port := { s.port with nibble := some { write, cd, value := v } } }
      else
        State.drive
          { s with port := { s.port with
              nibble := some { write, cd, value := lowNibble (s.readByte cd) } } }
          (nibbleByte (highNibble (s.readByte cd)))
     else s)

/-- R161, R162: a command code not in the table. -/
def execUnknownCommandCode (b : Byte) (s : State) : Res :=
  .next
    (if codeKnown b then s
     else
      match s.strobe true false b with
      | none => s
      | some s0 =>
        if s0.abandon.busy then s0.abandon.answer .busy [flagByte s0.port.frame.isSome]
        else s0.abandon.answer .range [])

/-! ## Designators (R164) -/

/-- R164: a designator of a kind that is latched already leaves the first standing. DESIGN CHOICE (log entry
32): a value out of range gives RANGE whether or not the kind is latched; R164 puts the two in no order. -/
def takeSelSubscriber (f : Frame) (s : State) : State :=
  if Config.maxAddr < f.num 0 3 then s.answer .range []
  else if s.port.latch.sub.isSome then s.answer .ok [0]
  else (s.setLatch { s.port.latch with sub := some (f.num 0 3) }).answer .ok [1]

def execSelSubscriber (w : PortWrite) (s : State) : Res :=
  .next (portRow .selSubscriber takeSelSubscriber w s)

/-- R164. DESIGN CHOICE (log entry 32): RANGE comes first. -/
def takeSelAccount (f : Frame) (s : State) : State :=
  if Config.accounts ≤ f.num 0 2 then s.answer .range []
  else if s.port.latch.acct.isSome then s.answer .ok [0]
  else (s.setLatch { s.port.latch with acct := some (f.num 0 2) }).answer .ok [1]

def execSelAccount (w : PortWrite) (s : State) : Res := .next (portRow .selAccount takeSelAccount w s)

/-- R164. -/
def takeSelPage (f : Frame) (s : State) : State :=
  if s.port.latch.page.isSome then s.answer .ok [0]
  else (s.setLatch { s.port.latch with page := some (tagOf (f.byte 0) (f.byte 1)) }).answer .ok [1]

def execSelPage (w : PortWrite) (s : State) : Res := .next (portRow .selPage takeSelPage w s)

/-- R164. -/
def takeSelClear (_ : Frame) (s : State) : State := (s.setLatch emptyLatch).answer .ok []

def execSelClear (s : State) : Res := .next (portCode .selClear takeSelClear s)

/-! ## PORT WIDTH and the notice commands (R160, R166) -/

/-- R160. -/
def State.setWidth (s : State) (four : Bool) : State :=
  { s with port := { s.port with fourBit := four, nibble := none } }

/-- R160. -/
def takePortWidth (f : Frame) (s : State) : State :=
  if f.arg 0 = 0 then (s.setWidth false).answer .ok []
  else if f.arg 0 = 1 then (s.setWidth true).answer .ok []
  else s.answer .range []

def execPortWidth (w : PortWrite) (s : State) : Res := .next (portRow .portWidth takePortWidth w s)

/-- R166: bit 7 of a mask is ignored. -/
def takeNoticeEnable (f : Frame) (s : State) : State :=
  State.answer { s with port := { s.port with enables := f.byte 0 &&& 0x7F } } .ok []

def execNoticeEnable (w : PortWrite) (s : State) : Res := .next (portRow .noticeEnable takeNoticeEnable w s)

/-- R166. -/
def takeNoticeClear (f : Frame) (s : State) : State :=
  State.answer { s with port := { s.port with causes := s.port.causes &&& ~~~(f.byte 0 &&& 0x7F) } } .ok []

def execNoticeClear (w : PortWrite) (s : State) : Res := .next (portRow .noticeClear takeNoticeClear w s)

/-- R166. -/
def takeNoticeRead (_ : Frame) (s : State) : State := s.answer .ok [s.port.causes, s.port.enables]

def execNoticeRead (s : State) : Res := .next (portCode .noticeRead takeNoticeRead s)

/-! ## Resets (R167, R3) -/

/-- R167. -/
def State.portReset (s : State) : State :=
  let s1 := ((s.dropFrame.clearResult).setLatch emptyLatch).setWidth false
  { s1 with staging := none }

def execPortReset (s : State) : Res := .next s.portReset

/-- R3: a power-on reset starts the autoclear, or starts it again. The blocks stand at their power-on
values from here on (log entry 19). -/
def execPowerOn (s : State) : Res :=
  .next { State.reset with op := some .autoclear, lateTicks := s.lateTicks, pending := s.pending }

/-- R3: the autoclear completes with every block at its defaults and every notice cause clear. What the
port and the links have exchanged meanwhile stays: the frame registers of the port, the bytes of
answer-back frames still arriving, and the outputs. -/
def execAutoclearComplete (s : State) : Res :=
  match s.op with
  | some .autoclear =>
    .next
      { State.reset with
        port := { s.port with causes := 0, enables := 0 }
        ab := ⟨{ freshAbSlot with rx := s.ab.v0.rx }, { freshAbSlot with rx := s.ab.v1.rx },
               { freshAbSlot with rx := s.ab.v2.rx }, { freshAbSlot with rx := s.ab.v3.rx }⟩
        out := s.out
        lateTicks := s.lateTicks
        pending := s.pending }
  | _ => .next s

end Sys2Proof.Machine
end

