-- ==== Sys2Proof/Machine/Dispatch.lean ====
section
/-! DEFINITION. One arm for each row of spec/opcode_table.json, each a call of its meaning. A meaning
changes everything but the queue of waiting steps. -/

namespace Sys2Proof.Machine

def exec (i : Instr) (s : State) : Host.Outcome State Fault Refusal :=
  match i with
  | .powerOn => Sys2Proof.Machine.execPowerOn s
  | .autoclearComplete => Sys2Proof.Machine.execAutoclearComplete s
  | .portReset => Sys2Proof.Machine.execPortReset s
  | .tick => Sys2Proof.Machine.execTick s
  | .levelMove c => Sys2Proof.Machine.execLevelMove c s
  | .wheelVisit slot => Sys2Proof.Machine.execWheelVisit slot s
  | .deadlineExpired slot => Sys2Proof.Machine.execDeadlineExpired slot s
  | .windowEnd slot => Sys2Proof.Machine.execWindowEnd slot s
  | .launch => Sys2Proof.Machine.execLaunch s
  | .intakeByte n b => Sys2Proof.Machine.execIntakeByte n b s
  | .idleByte n => Sys2Proof.Machine.execIdleByte n s
  | .headerByte n => Sys2Proof.Machine.execHeaderByte n s
  | .admission => Sys2Proof.Machine.execAdmission s
  | .textByte n => Sys2Proof.Machine.execTextByte n s
  | .checkByte n => Sys2Proof.Machine.execCheckByte n s
  | .skipByte n => Sys2Proof.Machine.execSkipByte n s
  | .idleTimeout n => Sys2Proof.Machine.execIdleTimeout n s
  | .receiptFetch n sending => Sys2Proof.Machine.execReceiptFetch n sending s
  | .additionComplete => Sys2Proof.Machine.execAdditionComplete s
  | .removalComplete => Sys2Proof.Machine.execRemovalComplete s
  | .partitionComplete => Sys2Proof.Machine.execPartitionComplete s
  | .purgeSlot => Sys2Proof.Machine.execPurgeSlot s
  | .purgeComplete => Sys2Proof.Machine.execPurgeComplete s
  | .pull c sending => Sys2Proof.Machine.execPull c sending s
  | .sent c slot gen => Sys2Proof.Machine.execSent c slot gen s
  | .failed c slot gen => Sys2Proof.Machine.execFailed c slot gen s
  | .answerBackFrame n marked b => Sys2Proof.Machine.execAnswerBackFrame n marked b s
  | .answerBackService => Sys2Proof.Machine.execAnswerBackService s
  | .serviceAnswer => Sys2Proof.Machine.execServiceAnswer s
  | .resultRead cd => Sys2Proof.Machine.execResultRead cd s
  | .argumentByte b => Sys2Proof.Machine.execArgumentByte b s
  | .unknownCommandCode b => Sys2Proof.Machine.execUnknownCommandCode b s
  | .selSubscriber w => Sys2Proof.Machine.execSelSubscriber w s
  | .selAccount w => Sys2Proof.Machine.execSelAccount w s
  | .selPage w => Sys2Proof.Machine.execSelPage w s
  | .selClear => Sys2Proof.Machine.execSelClear s
  | .portWidth w => Sys2Proof.Machine.execPortWidth w s
  | .noticeEnable w => Sys2Proof.Machine.execNoticeEnable w s
  | .noticeClear w => Sys2Proof.Machine.execNoticeClear w s
  | .noticeRead => Sys2Proof.Machine.execNoticeRead s
  | .addSubscriber w => Sys2Proof.Machine.execAddSubscriber w s
  | .readSubscriber => Sys2Proof.Machine.execReadSubscriber s
  | .writeField w => Sys2Proof.Machine.execWriteField w s
  | .linkAccount => Sys2Proof.Machine.execLinkAccount s
  | .suspend => Sys2Proof.Machine.execSuspend s
  | .resume => Sys2Proof.Machine.execResume s
  | .retire => Sys2Proof.Machine.execRetire s
  | .cursorSet w => Sys2Proof.Machine.execCursorSet w s
  | .cursorRead => Sys2Proof.Machine.execCursorRead s
  | .cursorReadMarked => Sys2Proof.Machine.execCursorReadMarked s
  | .markMode w => Sys2Proof.Machine.execMarkMode w s
  | .partition w => Sys2Proof.Machine.execPartition w s
  | .memoryStatus => Sys2Proof.Machine.execMemoryStatus s
  | .openAccount w => Sys2Proof.Machine.execOpenAccount w s
  | .bar => Sys2Proof.Machine.execBar s
  | .unbar => Sys2Proof.Machine.execUnbar s
  | .adjustBalance w => Sys2Proof.Machine.execAdjustBalance w s
  | .writeLimit w => Sys2Proof.Machine.execWriteLimit w s
  | .closeAccount => Sys2Proof.Machine.execCloseAccount s
  | .readAccount => Sys2Proof.Machine.execReadAccount s
  | .tablePointer w => Sys2Proof.Machine.execTablePointer w s
  | .tableRead w => Sys2Proof.Machine.execTableRead w s
  | .tableWrite w => Sys2Proof.Machine.execTableWrite w s
  | .lineEnable w => Sys2Proof.Machine.execLineEnable w s
  | .lineDisable w => Sys2Proof.Machine.execLineDisable w s
  | .lineFlush w => Sys2Proof.Machine.execLineFlush w s
  | .lineStatus w => Sys2Proof.Machine.execLineStatus w s
  | .lineClear w => Sys2Proof.Machine.execLineClear w s
  | .pageStatus => Sys2Proof.Machine.execPageStatus s
  | .cancelPage => Sys2Proof.Machine.execCancelPage s
  | .submitPage w => Sys2Proof.Machine.execSubmitPage w s
  | .purgeTraffic => Sys2Proof.Machine.execPurgeTraffic s
  | .setClock w => Sys2Proof.Machine.execSetClock w s
  | .readClock => Sys2Proof.Machine.execReadClock s
  | .channelOpen w => Sys2Proof.Machine.execChannelOpen w s
  | .channelDrain w => Sys2Proof.Machine.execChannelDrain w s
  | .channelClose w => Sys2Proof.Machine.execChannelClose w s
  | .channelStatus w => Sys2Proof.Machine.execChannelStatus w s
  | .channelClear w => Sys2Proof.Machine.execChannelClear w s
  | .answerBackStatus w => Sys2Proof.Machine.execAnswerBackStatus w s
  | .answerBackClear w => Sys2Proof.Machine.execAnswerBackClear w s
  | .monitorEnable => Sys2Proof.Machine.execMonitorEnable s
  | .monitorDisable => Sys2Proof.Machine.execMonitorDisable s
  | .monitorStatus => Sys2Proof.Machine.execMonitorStatus s
  | .settleBegin => Sys2Proof.Machine.execSettleBegin s
  | .settleRead => Sys2Proof.Machine.execSettleRead s
  | .pendingNibble write cd nibble => Sys2Proof.Machine.execPendingNibble write cd nibble s
  | .unknownReportKind c kind slot gen => Sys2Proof.Machine.execUnknownReportKind c kind slot gen s
  | .markedByteRestart n b => Sys2Proof.Machine.execMarkedByteRestart n b s

end Sys2Proof.Machine
end

