-- ==== Sys2Proof/WellFormed.lean ====
section
/-! DEFINITION. The checks that a step's operands must pass beyond their types. A step that fails one is
no event of the part; the meanings leave the state as it is. -/

namespace Sys2Proof

/-- R104, R160, R161, R170: a visit names one of the 64 wheel slots; an unknown code is not in the command
code table; an unknown report kind is neither SENT nor FAILED; a read strobe brings no nibble. -/
def Instr.wf (i : Instr) : Bool :=
  match i with
  | .wheelVisit w | .deadlineExpired w | .windowEnd w => w < Config.wheelSlots
  | .unknownCommandCode b => !Machine.codeKnown b
  | .unknownReportKind _ kind _ _ => kind ≠ 0x01 && kind ≠ 0x02
  | .pendingNibble write _ v => write || v = 0
  | _ => true

end Sys2Proof
end

