-- ==== Sys2Proof/Safety.lean ====
section
/-! DEFINITION. The terms in which statements about the part are made: what stands on the Command Port
when a command is taken, what the port holds after it, and the properties of a state that every step
keeps. -/

namespace Sys2Proof.Machine

/-! ## The rows of the commands -/

/-- The row of opcode_table.json that the code of command `c` is a step of. -/
def codeRow (c : Cmd) : Instr :=
  match c with
  | .selSubscriber => .selSubscriber .code
  | .selAccount => .selAccount .code
  | .selPage => .selPage .code
  | .selClear => .selClear
  | .portWidth => .portWidth .code
  | .noticeEnable => .noticeEnable .code
  | .noticeClear => .noticeClear .code
  | .noticeRead => .noticeRead
  | .addSubscriber => .addSubscriber .code
  | .readSubscriber => .readSubscriber
  | .writeField => .writeField .code
  | .linkAccount => .linkAccount
  | .suspend => .suspend
  | .resume => .resume
  | .retire => .retire
  | .cursorSet => .cursorSet .code
  | .cursorRead => .cursorRead
  | .cursorReadMarked => .cursorReadMarked
  | .markMode => .markMode .code
  | .partition => .partition .code
  | .memoryStatus => .memoryStatus
  | .openAccount => .openAccount .code
  | .bar => .bar
  | .unbar => .unbar
  | .adjustBalance => .adjustBalance .code
  | .writeLimit => .writeLimit .code
  | .closeAccount => .closeAccount
  | .readAccount => .readAccount
  | .tablePointer => .tablePointer .code
  | .tableRead => .tableRead .code
  | .tableWrite => .tableWrite .code
  | .lineEnable => .lineEnable .code
  | .lineDisable => .lineDisable .code
  | .lineFlush => .lineFlush .code
  | .lineStatus => .lineStatus .code
  | .lineClear => .lineClear .code
  | .pageStatus => .pageStatus
  | .cancelPage => .cancelPage
  | .submitPage => .submitPage .code
  | .purgeTraffic => .purgeTraffic
  | .setClock => .setClock .code
  | .readClock => .readClock
  | .channelOpen => .channelOpen .code
  | .channelDrain => .channelDrain .code
  | .channelClose => .channelClose .code
  | .channelStatus => .channelStatus .code
  | .channelClear => .channelClear .code
  | .answerBackStatus => .answerBackStatus .code
  | .answerBackClear => .answerBackClear .code
  | .monitorEnable => .monitorEnable
  | .monitorDisable => .monitorDisable
  | .monitorStatus => .monitorStatus
  | .settleBegin => .settleBegin
  | .settleRead => .settleRead

/-- The row that the last argument byte `b` of command `c` is a step of; a command without arguments has
none. -/
def lastRow (c : Cmd) (b : Byte) : Option Instr :=
  match c with
  | .selSubscriber => some (.selSubscriber (.last b))
  | .selAccount => some (.selAccount (.last b))
  | .selPage => some (.selPage (.last b))
  | .portWidth => some (.portWidth (.last b))
  | .noticeEnable => some (.noticeEnable (.last b))
  | .noticeClear => some (.noticeClear (.last b))
  | .addSubscriber => some (.addSubscriber (.last b))
  | .writeField => some (.writeField (.last b))
  | .cursorSet => some (.cursorSet (.last b))
  | .markMode => some (.markMode (.last b))
  | .partition => some (.partition (.last b))
  | .openAccount => some (.openAccount (.last b))
  | .adjustBalance => some (.adjustBalance (.last b))
  | .writeLimit => some (.writeLimit (.last b))
  | .tablePointer => some (.tablePointer (.last b))
  | .tableRead => some (.tableRead (.last b))
  | .tableWrite => some (.tableWrite (.last b))
  | .lineEnable => some (.lineEnable (.last b))
  | .lineDisable => some (.lineDisable (.last b))
  | .lineFlush => some (.lineFlush (.last b))
  | .lineStatus => some (.lineStatus (.last b))
  | .lineClear => some (.lineClear (.last b))
  | .submitPage => some (.submitPage (.last b))
  | .setClock => some (.setClock (.last b))
  | .channelOpen => some (.channelOpen (.last b))
  | .channelDrain => some (.channelDrain (.last b))
  | .channelClose => some (.channelClose (.last b))
  | .channelStatus => some (.channelStatus (.last b))
  | .channelClear => some (.channelClear (.last b))
  | .answerBackStatus => some (.answerBackStatus (.last b))
  | .answerBackClear => some (.answerBackClear (.last b))
  | .selClear | .noticeRead | .readSubscriber | .linkAccount | .suspend | .resume | .retire
  | .cursorRead | .cursorReadMarked | .memoryStatus | .bar | .unbar | .closeAccount
  | .readAccount | .pageStatus | .cancelPage | .purgeTraffic | .readClock | .monitorEnable
  | .monitorDisable | .monitorStatus | .settleBegin | .settleRead => none

/-! ## A command being taken -/

/-- R160: a strobe of this direction and CD completes the byte `b` now: every strobe does in 8-bit mode,
and in 4-bit mode the second of a pair whose first left the high nibble of `b`. -/
abbrev State.byteReady (s : State) (write cd : Bool) (b : Byte) : Prop :=
  s.port.fourBit = false ∨ s.port.nibble = some { write, cd, value := highNibble b }

/-- R160: the port once a byte is complete: in 4-bit mode no nibble is pending. -/
def Port.paired (p : Port) : Port := if p.fourBit then { p with nibble := none } else p

/-- R163: the port with the result `bs` written. -/
def Port.answered (p : Port) (bs : List Byte) : Port := { p with result := bs, readIdx := 0, ready := true }

/-- The state with the registers of its Command Port replaced. -/
def State.setPort (s : State) (p : Port) : State := { s with port := p }

/-- R165: the latch of a command that needs no designator, one SUBSCRIBER, one ACCOUNT, both, or one PAGE
designator. -/
abbrev noDesig : Latch := { sub := none, acct := none, page := none }
abbrev subDesig (a : Nat) : Latch := { sub := some a, acct := none, page := none }
abbrev acctDesig (i : Nat) : Latch := { sub := none, acct := some i, page := none }
abbrev bothDesig (a i : Nat) : Latch := { sub := some a, acct := some i, page := none }
abbrev pageDesig (t : Tag) : Latch := { sub := none, acct := none, page := some t }

/-- The code of command `c` is complete on the port, busy is clear and no frame is open, and the latch
holds `d` (R161 to R165). -/
abbrev State.codeArrives (s : State) (c : Cmd) (d : Latch) : Prop :=
  s.byteReady true false (cmdCode c) ∧ s.op = none ∧ s.port.frame = none ∧ s.port.latch = d

/-- The argument byte `b` is complete on the port, and the frame open is that of `c`, not MISQUALIFIED,
with the earlier argument bytes `args` and the designators `d` (R161, R165). -/
abbrev State.lastArrives (s : State) (c : Cmd) (args : List Byte) (b : Byte) (d : Latch) : Prop :=
  s.byteReady true true b ∧
    s.port.frame = some { cmd := c, args := args, misq := false, desig := d, outcome := .none }

/-- R163, R165: an operative command taken at its code has given the result `bs`: the latch is empty, and
nothing else has changed. -/
def State.afterCode (s : State) (bs : List Byte) : State :=
  s.setPort (Port.answered { s.port.paired with latch := noDesig } bs)

/-- R163: a command taken at its last argument byte has given the result `bs`: its frame is closed, and
nothing else has changed. -/
def State.afterLast (s : State) (bs : List Byte) : State :=
  s.setPort (Port.answered { s.port.paired with frame := none } bs)

/-! ## Properties that steps keep -/

/-- A table in its canonical form: keys strictly rising, and no entry equal to the unlisted value. -/
abbrev tblWf {α : Type} (d : Nat → α) (t : List (Nat × α)) : Prop :=
  t.Pairwise (fun p q => p.1 < q.1) ∧ ∀ p ∈ t, p.2 ≠ d p.1

/-- Every table of the state is in its one canonical form, so that equal contents are equal data. -/
structure State.Canonical (s : State) : Prop where
  text : Memory.wf s.text
  accounts : tblWf (fun _ => unusedAccount) s.accounts
  settings : tblWf settingDefault s.settings
  slots : tblWf (fun _ => freshSlot) s.slots
  wheel : tblWf (fun _ => ([] : List Tag)) s.wheel

/-- R4, R10: the directory is in strictly increasing unit address and within the capacity of its
partition; a record being added has a new address and room, and a partition being rebuilt to has room. -/
structure State.DirectoryOk (s : State) : Prop where
  sorted : s.directory.Pairwise (fun p q => p.addr < q.addr)
  room : s.directory.length ≤ dirCapacity s.partition
  adding : ∀ r, s.op = some (.addition r) →
    (∀ q ∈ s.directory, q.addr ≠ r.addr) ∧ s.directory.length < dirCapacity s.partition
  rebuilding : ∀ p, s.op = some (.rebuild p) → s.directory.length ≤ dirCapacity p

/-- R12: every record, the one being added with them (R9), names an account that is OPEN or BARRED, and the
reference count of every account is the number of records that name it. -/
structure State.RefsOk (s : State) : Prop where
  directory : s.DirectoryOk
  named : ∀ r ∈ s.directory, (s.acct r.account).state ≠ .unused
  adding : ∀ r, s.op = some (.addition r) → (s.acct r.account).state ≠ .unused
  refs : ∀ i, (s.acct i).refs = s.directory.countP (fun r => r.account = i)

/-- R26, R35: the figures of an account are within their ranges, and its overrun flag is set exactly when
the balance is below minus the credit limit. -/
structure Account.Ok (a : Account) : Prop where
  balanceMin : -8388608 ≤ a.balance
  balanceMax : a.balance ≤ 8388607
  cl : a.cl ≤ 65535
  held : a.held ≤ 16777215
  overrun : a.overrun = true ↔ a.balance < -(a.cl : Int)
  refs : a.refs ≤ 4096
  pages : a.accepted ≤ 65535 ∧ a.delivered ≤ 65535 ∧ a.sentOnly ≤ 65535 ∧ a.expired ≤ 65535 ∧
    a.cancelled ≤ 65535 ∧ a.aborted ≤ 65535
  units : a.attempts ≤ 16777215 ∧ a.charged ≤ 16777215 ∧ a.refunded ≤ 16777215

/-- Every account is as `Account.Ok` says. -/
def State.AccountsOk (s : State) : Prop := ∀ i, (s.acct i).Ok

/-- 00_scope.md, R24, R119: every setting is within its range; the high watermark is not below the low
one, and t2 of a profile is not below its t1. -/
structure State.SettingsOk (s : State) : Prop where
  ranges : ∀ a f, fieldAt a = some f → f.lo ≤ s.setting f.first ∧ s.setting f.first ≤ f.hi
  marks : s.lowMark ≤ s.highMark
  tiers : ∀ p, p < 8 → s.setting (profileAddr p 1) ≤ s.setting (profileAddr p 2)

/-- R58, R60, R62: a line's FIFO, counts and timer are within their ranges, a DISABLED line holds no byte,
and the fill hold stands as its threshold gives. -/
structure Line.Ok (l : Line) (h : Nat) : Prop where
  fifo : l.fifo.length ≤ 64
  disabled : l.state = .disabled → l.fifo = []
  up : h ≤ l.fifo.length → l.fillHold = true
  down : l.fifo.length + 8 ≤ h → l.fillHold = false
  header : l.header.length ≤ 5 ∧ (l.state = .header → l.header.length < 5)
  timer : l.timer ≤ 60
  counters : l.junk ≤ 65535 ∧ l.accepted ≤ 65535 ∧ l.refused ≤ 65535

/-- Every line is as `Line.Ok` says, and every FIFO threshold is in its range (R76). -/
structure State.LinesOk (s : State) : Prop where
  lines : ∀ n, (s.line n).Ok (s.threshold n)
  thresholds : ∀ n, 8 ≤ s.threshold n ∧ s.threshold n ≤ 60

/-- R145, R146, R152: each channel's level is enabled and its figures are within their ranges; while the
monitor is disabled the level is the effective boot level. -/
structure State.MonitorOk (s : State) : Prop where
  boot : s.bootLevel ≤ 3
  enabled : ∀ c, s.levelEnabled (s.mon c).level = true
  level : ∀ c, (s.mon c).level ≤ 3
  activity : ∀ c, (s.mon c).activity ≤ 4095
  counts : ∀ c, (s.mon c).up ≤ 15 ∧ (s.mon c).down ≤ 15 ∧ (s.mon c).residency ≤ 65535
  off : s.monitorOn = false → ∀ c, (s.mon c).level = s.effectiveBoot

/-- R121 to R124: at most four outstanding tags and 64 queued entries; a CLOSED channel has empty bands,
and a channel with the drained flag set is CLOSED. -/
structure Channel.Ok (ch : Channel) : Prop where
  outstanding : ch.outstanding.length ≤ 4
  queue : ch.urgent.length + ch.normal.length ≤ 64
  closed : ch.state = .closed → ch.urgent = [] ∧ ch.normal = []
  drained : ch.drained = true → ch.state = .closed
  stray : ch.stray ≤ 65535

/-- Both channels are as `Channel.Ok` says. -/
def State.ChannelsOk (s : State) : Prop := ∀ c, (s.chan c).Ok

/-- R19, R102, R104, R154, R160, R163, R164, R166: the port's registers, the clock and the cursors are
within their ranges. A result is ready exactly while a byte of it is unread. -/
structure State.PortOk (s : State) : Prop where
  index : s.port.readIdx ≤ s.port.result.length
  ready : s.port.ready = true ↔ s.port.readIdx < s.port.result.length
  nibble : s.port.fourBit = false → s.port.nibble = none
  causes : s.port.causes.getLsbD 7 = false
  enables : s.port.enables.getLsbD 7 = false
  sub : ∀ a, s.port.latch.sub = some a → a ≤ 4194303
  acct : ∀ i, s.port.latch.acct = some i → i ≤ 1023
  time : s.time ≤ 4294967295
  head : s.head < 64
  pointer : s.tablePtr < 2048
  sweep : s.settleCursor ≤ 1024

/-! ## Live entries -/

/-- The live entries of the Pending Page Table, in slot order. -/
def State.liveEntries (s : State) : List Entry := slotIndices.filterMap (fun i => (s.slot i).entry)

/-- R85: the table has 256 slots. -/
def State.SlotsOk (s : State) : Prop := ∀ i, 256 ≤ i → (s.slot i).entry = none

/-- R34: held of an account is the sum of the charges of the live entries that name it, each at most
4,095. -/
structure State.HeldOk (s : State) : Prop where
  slots : s.SlotsOk
  charges : ∀ e ∈ s.liveEntries, e.charge ≤ 4095
  held : ∀ i, (s.acct i).held = ((s.liveEntries.filter (fun e => e.account = i)).map (fun e => e.charge)).sum

/-- R15: every live entry bears the address of a record, and every record's live count is the number of
live entries that bear its address, at most 8. With it goes what the removals and additions need: only
records without live entries are being removed or are pending, a record being added is new, and nothing
is pending without an operation (R15, R16). -/
structure State.LiveOk (s : State) : Prop where
  slots : s.SlotsOk
  sorted : s.directory.Pairwise (fun p q => p.addr < q.addr)
  bears : ∀ e ∈ s.liveEntries, ∃ r ∈ s.directory, r.addr = e.addr
  counts : ∀ r ∈ s.directory, r.live = s.liveEntries.countP (fun e => e.addr = r.addr) ∧ r.live ≤ 8
  removing : ∀ a b, s.op = some (.removal a b) → ∀ r ∈ s.directory, r.addr = a → r.live = 0
  pendings : ∀ a ∈ s.pendingRemovals, ∀ r ∈ s.directory, r.addr = a → r.live = 0
  quiet : s.op = none → s.pendingRemovals = []
  adding : ∀ r, s.op = some (.addition r) → r.live = 0 ∧ ∀ q ∈ s.directory, q.addr ≠ r.addr

/-- R23: the free blocks and the blocks of the live entries are together every block of the pool, each
once; a rebuild is made with no live entry (R2). -/
structure State.PoolOk (s : State) : Prop where
  slots : s.SlotsOk
  blocks : (s.freeBlocks ++ s.liveEntries.flatMap (fun e => e.blocks)).Perm
    (List.range (poolCapacity s.partition))
  rebuilding : ∀ p, s.op = some (.rebuild p) → s.liveEntries = []

/-- R83: no two live entries of one subscriber share a serial, and a serial is of the 64-value circle. -/
structure State.SerialsOk (s : State) : Prop where
  range : ∀ e ∈ s.liveEntries, e.serial < 64
  distinct : ∀ i j e f, i < j → j < 256 → (s.slot i).entry = some e → (s.slot j).entry = some f →
    e.addr = f.addr → e.serial ≠ f.serial

/-! ## The places of live entries (R88) -/

/-- R87: an entry stands on the Retry Wheel. -/
def PageState.onWheel (st : PageState) : Bool :=
  match st with
  | .waiting | .listening => true
  | .assembling | .queued | .onAir => false

/-- R66, R97: the source of an ASSEMBLING entry of tag `t` is still delivering its page: its line has the
tag bound, or the port's frame holds it. -/
def State.sourceHolds (s : State) (t : Tag) (e : Entry) : Prop :=
  match e.source with
  | .line n => (s.line n).bound = some t
  | .port => ∃ f v, s.port.frame = some f ∧ f.outcome = .admitted t v

/-- R123: the band of an entry's priority. -/
def Channel.band (ch : Channel) (p : Priority) : List Tag :=
  match p with
  | .urgent => ch.urgent
  | .normal => ch.normal

/-- R88: every live entry stands in the one place of its state, and every place but an outstanding list
holds live entries of that state alone, each once. -/
structure State.EntriesPlaced (s : State) : Prop where
  slots : s.SlotsOk
  assembling : ∀ t e, s.entry t = some e → e.state = .assembling →
    (s.sourceHolds t e ↔ s.launchAsked t = false)
  wheel : ∀ t e, s.entry t = some e →
    (e.state.onWheel = true → ∃ w r, e.wheel = some (w, r) ∧ t ∈ s.wheelList w) ∧
    (e.state.onWheel = false → e.wheel = none)
  queued : ∀ t e, s.entry t = some e → e.state = .queued → t ∈ (s.chan e.chan).band e.priority
  onAir : ∀ t e, s.entry t = some e → e.state = .onAir → t ∈ (s.chan e.chan).outstanding
  lines : ∀ n t, (s.line n).bound = some t →
    ((s.line n).state = .text ∨ (s.line n).state = .check) ∧
    ∃ e, s.entry t = some e ∧ e.state = .assembling ∧ e.source = .line n
  frame : ∀ f t v, s.port.frame = some f → f.outcome = .admitted t v →
    ∃ e, s.entry t = some e ∧ e.state = .assembling ∧ e.source = .port
  wheelLists : ∀ w, (s.wheelList w).Nodup ∧ ∀ t ∈ s.wheelList w,
    ∃ e r, s.entry t = some e ∧ e.state.onWheel = true ∧ e.wheel = some (w, r)
  bands : ∀ c p, ((s.chan c).band p).Nodup ∧ ∀ t ∈ (s.chan c).band p,
    ∃ e, s.entry t = some e ∧ e.state = .queued ∧ e.chan = c ∧ e.priority = p

/-- R78, R97, R107, R110: what waits names what it is for: a request its source, a launch an entry that may
be launched, each once, and a visit the entries of its slot. While the part is clearing or purging, no
frame is open (R100, R162). -/
structure State.WaitersOk (s : State) : Prop where
  lineRequest : ∀ n, s.lookups.any (fun l => isRequestOf (.line n) l.user) = true → (s.line n).state = .lookup
  portRequest : s.lookups.any (fun l => isRequestOf .port l.user) = true ↔
    ∃ f, s.port.frame = some f ∧ f.outcome = .outstanding
  requestOnce : ∀ src, s.lookups.countP (fun l => isRequestOf src l.user) ≤ 1
  launch : ∀ t, s.launchAsked t = true →
    ∃ e, s.entry t = some e ∧ (e.state = .assembling ∨ e.state.onWheel = true)
  launchOnce : ∀ t, s.lookups.countP (fun l => isLaunchOf t l.user) ≤ 1
  visits : ∀ v ∈ s.visits, v.todo.Nodup ∧ ∀ t ∈ v.todo, t ∈ s.wheelList v.slot
  frames : ∀ f, s.port.frame = some f → f.outcome ≠ .none →
    f.cmd = .submitPage ∧ 5 ≤ f.args.length ∧ f.misq = false
  quiet : (s.op = some .autoclear ∨ ∃ i, s.op = some (.purge i)) → s.port.frame = none

/-- R88: the places of the live entries, with what the steps that move them rest on. -/
structure State.PlacesOk (s : State) : Prop where
  placed : s.EntriesPlaced
  waiters : s.WaitersOk

end Sys2Proof.Machine
end

