-- ==== Sys2Proof/Certificates/Slice0/Obligations.lean ====
section
/-! DEFINITION. The statements put to the provers, one `def Obligations.<Name> : Prop` each. Codes of
results, reasons and answers are written out as the bytes of R168 to R170. A statement about one step
gives the next state whole: every field it does not name is the one before the step. -/

open Sys2Proof Sys2Proof.Machine

/-! ## The queue, power and the autoclear -/

/-- The block's interface: the step at the front of the queue is run on the state with the rest of the
queue; on an empty queue the part idles (the model's choice, log entry 3). -/
def Obligations.StepTakesTheFront : Prop :=
  (∀ (s : State) (c : Instr) (rest : List Instr), s.pending = c :: rest →
    step s = exec c { s with pending := rest }) ∧
  (∀ s : State, s.pending = [] → step s = .next s)

/-- No step puts a command into the queue or takes one out: the queue belongs to the outside (log entry
20). -/
def Obligations.MeaningsLeaveTheQueue : Prop :=
  ∀ (c : Instr) (s t : State), exec c s = .next t → t.pending = s.pending

/-- R3, with the defaults of R26, R58, R85, R121, R134 and R145: a power-on reset starts the autoclear,
whatever the state, a second one starts it again, and at its completion every block stands at its
defaults with no notice cause set. When the values are taken, and what the port and the links keep
through the autoclear, are the model's reading (log entries 1 and 19). R3: while the autoclear is in
flight no line takes a byte, no tick is counted, a pull is answered STALLED, a report counts nowhere, an
answer-back frame is discarded, a fetch is answered NONE, and every hold is up. -/
def Obligations.PowerOnAndAutoclear : Prop :=
  ((∀ s : State, ∃ t, exec .powerOn s = .next t ∧ t.op = some .autoclear ∧ exec .powerOn t = .next t ∧
     exec .autoclearComplete t = .next
       { State.reset with lateTicks := s.lateTicks, pending := s.pending }) ∧
   (∀ s : State, s.op = some .autoclear → ∃ u, exec .autoclearComplete s = .next u ∧
     u.op = none ∧ u.partition = 0 ∧ u.directory = [] ∧ u.freeBlocks = List.range 512 ∧
     u.lowMark = 16 ∧ u.highMark = 32 ∧ u.poolHold = false ∧ u.markMode = .off ∧ u.cursorKey = 0 ∧
     u.cursorMode = .forward ∧ u.pendingRemovals = [] ∧ u.lookups = [] ∧ u.port.causes = 0 ∧
     (∀ i, u.acct i = unusedAccount) ∧ (∀ i, u.slot i = { gen := 0, last := .none, entry := none }) ∧
     (∀ n, u.line n = freshLine) ∧ (∀ c, u.chan c = freshChannel) ∧
     (∀ n, u.abSlot n = { freshAbSlot with rx := (s.abSlot n).rx }) ∧
     u.servicePtr = 3 ∧ u.monitorOn = true ∧ (∀ c, u.mon c = freshMonitor) ∧ u.time = 0 ∧ u.head = 0 ∧
     u.settleCursor = 0 ∧ u.tablePtr = 0 ∧ u.staging = none ∧
     u.port = { s.port with causes := 0, enables := 0 } ∧ u.out = s.out ∧ u.lateTicks = s.lateTicks ∧
     u.pending = s.pending)) ∧
  (∀ s : State, s.op = some .autoclear →
     exec .tick s = .next s ∧
     (∀ n b, exec (.intakeByte n b) s = .next s) ∧
     (∀ c, exec (.pull c false) s = .next (s.setEnc c [0x01])) ∧
     (∀ c slot gen, exec (.sent c slot gen) s = .next s ∧ exec (.failed c slot gen) s = .next s) ∧
     (∀ c kind slot gen, exec (.unknownReportKind c kind slot gen) s = .next s) ∧
     (∀ n, exec (.receiptFetch n false) s = .next (s.setRcv n [0x00, 0, 0, 0])) ∧
     (∀ n b, (s.abSlot n).rx.length = 4 →
       exec (.answerBackFrame n false b) s = .next (s.setAbSlot n { s.abSlot n with rx := [] })) ∧
     (∀ n, s.lineHold n = true ∧ s.abHold n = true))

/-! ## Frames on the Command Port -/

/-- R161, R163, R165: the code of a command with arguments, with busy clear and no frame open, opens its
frame. An operative command takes the latch into the frame, or marks it MISQUALIFIED, and empties the
latch; the result buffer is emptied. -/
def Obligations.CodeOpensItsFrame : Prop :=
  ∀ (s : State) (c : Cmd), cmdArgs c ≠ 0 → s.byteReady true false (cmdCode c) → s.op = none →
    s.port.frame = none →
    exec (codeRow c) s = .next
      { s with port := { s.port.paired with
          latch := if operative c then noDesig else s.port.latch
          frame := some { cmd := c, args := [], misq := operative c && !latchMatches c s.port.latch,
                          desig := if operative c then s.port.latch else noDesig, outcome := .none }
          result := [], readIdx := 0, ready := false } }

/-- R99, R161 to R163. A code that arrives while busy is set abandons an incomplete frame and gives BUSY
with the byte that says so; the latch and everything else stay. A code that arrives with a frame
incomplete abandons it first: a command without arguments then acts as with no frame open, and one with
arguments opens its frame over the result ABANDONED. The loss of a frame withdraws its outstanding
request, or ends its admitted page ABORTED, and changes nothing else but the frame. That busy is judged
after the loss is the model's reading (log entry 6). -/
def Obligations.CodesOverAnOpenFrame : Prop :=
  (∀ (s : State) (c : Cmd), s.byteReady true false (cmdCode c) → s.op ≠ none →
     let u := { s with port := s.port.paired }.dropFrame
     exec (codeRow c) s = .next
       { u with port := u.port.answered [0x01, if s.port.frame.isSome then 1 else 0] }) ∧
  (∀ s : State,
     (s.port.frame = none → s.dropFrame = s) ∧
     (∀ f, s.port.frame = some f →
       ((f.outcome = .none ∨ ∃ r p, f.outcome = .refused r p) →
         s.dropFrame = { s with port := { s.port with frame := none } }) ∧
       (f.outcome = .outstanding →
         s.dropFrame = { s with
           lookups := s.lookups.filter (fun l => !isRequestOf .port l.user)
           port := { s.port with frame := none } }) ∧
       (∀ t v, f.outcome = .admitted t v →
         s.dropFrame = (s.endEntry .aborted t).setFrame none))) ∧
  (∀ (s : State) (c : Cmd), s.byteReady true false (cmdCode c) → s.port.frame ≠ none →
     s.dropFrame.op = none →
     (cmdArgs c = 0 → exec (codeRow c) s = exec (codeRow c) s.dropFrame) ∧
     (cmdArgs c ≠ 0 →
       let u := { s with port := s.port.paired }.dropFrame
       exec (codeRow c) s = .next
         { u with port := { u.port with
             latch := if operative c then noDesig else s.port.latch
             frame := some { cmd := c, args := [], misq := operative c && !latchMatches c s.port.latch,
                             desig := if operative c then s.port.latch else noDesig, outcome := .none }
             result := [0x0B], readIdx := 0, ready := true } }))

/-- R165, R162. A command whose designators do not match the latch consumes its argument bytes, gives
MISQUALIFIED at its last byte, and changes nothing else. A frame opened before busy was set whose last
byte arrives while busy is set is refused with BUSY and changes nothing, for every command but SUBMIT
PAGE and those of Chapters 1 and 2 and of the port itself; TABLE WRITE is refused too. BUSY, where R162
gives it, comes before MISQUALIFIED, and is one byte (log entry 7). -/
def Obligations.MisqualifiedAndBusyFrames : Prop :=
  (∀ (s : State) (c : Cmd),
     (operative c = true → cmdArgs c = 0 → s.byteReady true false (cmdCode c) → s.op = none →
       s.port.frame = none → latchMatches c s.port.latch = false →
       exec (codeRow c) s = .next (s.afterCode [0x06])) ∧
     (∀ (b : Byte) (f : Frame) (i : Instr), lastRow c b = some i → s.byteReady true true b →
       s.port.frame = some f → f.cmd = c → f.misq = true → argsComplete c (f.args ++ [b]) = true →
       (s.op = none ∨ (cmdCode c).toNat < 0x2A ∨ cmdCode c = 0x42) →
       exec i s = .next (s.afterLast [0x06]))) ∧
  (∀ (s : State) (c : Cmd) (b : Byte) (f : Frame) (i : Instr), lastRow c b = some i →
     s.byteReady true true b → s.port.frame = some f → f.cmd = c →
     argsComplete c (f.args ++ [b]) = true → s.op ≠ none →
     (cmdCode c = 0x2A ∨ (0x30 ≤ (cmdCode c).toNat ∧ cmdCode c ≠ 0x42)) →
     exec i s = .next (s.afterLast [0x01]))

/-- R161: an argument byte joins the open frame, or is dropped with no frame open. R98: a text byte of a
SUBMIT PAGE frame that is not its last joins the frame; for an admitted page it is also written at
position k mod 16 of block k div 16 of the entry, and for a request outstanding or refused it is only
kept. A byte beyond the last of a frame whose outcome is outstanding is dropped (the model's reading, log
entry 16). R161, R162: a code that is not in the table opens no frame and leaves the latch. It abandons
an incomplete frame and gives RANGE, or BUSY while busy is set; that busy is judged after the frame is
lost is the model's reading (log entry 6). -/
def Obligations.ArgumentAndUnknownBytes : Prop :=
  (∀ (s : State) (b : Byte), s.byteReady true true b →
     (s.port.frame = none → exec (.argumentByte b) s = .next { s with port := s.port.paired }) ∧
     (∀ f, s.port.frame = some f → argsComplete f.cmd (f.args ++ [b]) = false →
       argsComplete f.cmd f.args = false → (f.cmd ≠ .submitPage ∨ f.args.length < 4 ∨ f.misq = true) →
       exec (.argumentByte b) s = .next
         { s with port := { s.port.paired with frame := some { f with args := f.args ++ [b] } } })) ∧
  (∀ (s : State) (b : Byte) (f : Frame), s.byteReady true true b → s.port.frame = some f →
     f.cmd = .submitPage → f.misq = false → 5 ≤ f.args.length →
     let len := (f.args.getD 4 0).toNat
     let k := f.args.length - 5
     let joined : State :=
       { s with port := { s.port.paired with frame := some { f with args := f.args ++ [b] } } }
     (k + 1 < len →
       (f.outcome = .outstanding → exec (.argumentByte b) s = .next joined) ∧
       (∀ reason peer, f.outcome = .refused reason peer → exec (.argumentByte b) s = .next joined) ∧
       (∀ t v e block, f.outcome = .admitted t v → s.entry t = some e → e.blocks[k / 16]? = some block →
         4096 - 512 * s.partition + block < 4608 →
         ∃ u, exec (.argumentByte b) s = .next u ∧
           let a := 16 * (4096 - 512 * s.partition + block) + k % 16
           cellRead u.text a = some b ∧ (∀ a', a' ≠ a → cellRead u.text a' = cellRead s.text a') ∧
           u = { joined with text := u.text })) ∧
     (k = len → exec (.argumentByte b) s = .next { s with port := s.port.paired })) ∧
  (∀ (s : State) (b : Byte), (∀ c, cmdCode c ≠ b) → s.byteReady true false b →
     let u := { s with port := s.port.paired }.dropFrame
     exec (.unknownCommandCode b) s = .next
       { u with port := (u.port.answered
           (if u.op = none then [0x07] else [0x01, if s.port.frame.isSome then 1 else 0])) })

/-- R97, R79, R80: the fifth header byte of a SUBMIT PAGE frame hands in its request. A length above 240
or a routing refusal is kept for the result, or given at once for a page of no text; otherwise a lookup
is asked for, held while an operation that takes time is in progress or a removal is pending. -/
def Obligations.SubmitPageHandsIn : Prop :=
  ∀ (s : State) (h0 h1 h2 h3 n : Byte), s.lastArrives .submitPage [h0, h1, h2, h3] n noDesig →
    let i : Instr := if n = 0 then .submitPage (.last n) else .argumentByte n
    let h : Header :=
      { addr := 65536 * (h1.toNat % 64) + 256 * h2.toNat + h3.toNat
        priority := if h0.getLsbD 0 then .urgent else .normal
        kind := if h0.getLsbD 1 then .text else .numeric
        len := n.toNat }
    let f : Frame :=
      { cmd := .submitPage, args := [h0, h1, h2, h3, n], misq := false, desig := noDesig,
        outcome := .outstanding }
    let refused : Reason → Nat → State := fun reason peer =>
      if n = 0 then s.afterLast [BitVec.ofNat 8 (0x40 + reasonCode reason), BitVec.ofNat 8 peer]
      else s.setPort { s.port.paired with frame := some { f with outcome := .refused reason peer } }
    (240 < n.toNat → exec i s = .next (refused .length 0)) ∧
    (n.toNat ≤ 240 → ∀ p, s.disposition h.addr = .foreign p → exec i s = .next (refused .foreign p)) ∧
    (n.toNat ≤ 240 → s.disposition h.addr = .blocked → exec i s = .next (refused .blocked 0)) ∧
    (n.toNat ≤ 240 → s.disposition h.addr = .localOffice → exec i s = .next
      { s with
        lookups := s.lookups ++
          [{ user := .admission .port h, held := s.op.isSome || !s.pendingRemovals.isEmpty }]
        port := { s.port.paired with frame := some f } })

/-- R163: a read of the result buffer in 8-bit mode drives the byte at the index and advances it, clears
result ready with the last byte, and returns 0 past it; a read of the status byte drives busy, result
ready, notice pending and the port width in bits 0 to 3 and changes nothing else. R160: the first strobe
of a pair in 4-bit mode, the one before it having completed a byte or differing in direction or CD. A
write keeps its nibble. A read forms its byte, drives the high nibble with 0 below it, and keeps the low
nibble; the second strobe drives that nibble and acts as the read of one byte (log entry 8). The byte that
a status read forms then has bits 0 to 2 as above and bit 3 set. That a status read is a form of
RESULT_READ is the model's reading (log entry 9). -/
def Obligations.ReadsAndNibbles : Prop :=
  (∀ s : State, s.port.fourBit = false →
     (∀ (l : List Byte) (b : Byte) (r : List Byte), s.port.result = l ++ b :: r → s.port.readIdx = l.length →
       exec (.resultRead true) s = .next
         { s with
           port := { s.port with readIdx := l.length + 1, ready := s.port.ready && !r.isEmpty }
           out := { s.out with data := b } }) ∧
     (s.port.result.length ≤ s.port.readIdx →
       exec (.resultRead true) s = .next { s with out := { s.out with data := 0 } }) ∧
     (∃ b : Byte, exec (.resultRead false) s = .next { s with out := { s.out with data := b } } ∧
       b.getLsbD 0 = s.op.isSome ∧ b.getLsbD 1 = s.port.ready ∧
       b.getLsbD 2 = decide (s.port.causes &&& s.port.enables ≠ 0) ∧ b.getLsbD 3 = false ∧
       b.toNat < 16)) ∧
  (∀ (s : State) (cd : Bool), s.port.fourBit = true →
     (∀ v, (∀ n, s.port.nibble = some n → n.write = false ∨ n.cd ≠ cd) →
       exec (.pendingNibble true cd v) s = .next
         { s with port := { s.port with nibble := some { write := true, cd := cd, value := v } } }) ∧
     (∀ b : Byte, (∀ n, s.port.nibble = some n → n.write = true ∨ n.cd ≠ cd) →
       (cd = true → b = s.port.result.getD s.port.readIdx 0) →
       (cd = false →
         b.getLsbD 0 = s.op.isSome ∧ b.getLsbD 1 = s.port.ready ∧
         b.getLsbD 2 = decide (s.port.causes &&& s.port.enables ≠ 0) ∧ b.getLsbD 3 = true ∧
         b.toNat < 16) →
       exec (.pendingNibble false cd 0) s = .next
         { s with
           port := { s.port with
             nibble := some { write := false, cd := cd, value := b.extractLsb' 0 4 } }
           out := { s.out with data := b.extractLsb' 4 4 ++ 0#4 } }) ∧
     (∀ v : BitVec 4, s.port.nibble = some { write := false, cd := cd, value := v } →
       exec (.resultRead cd) s = .next
         { s with
           port :=
             (if cd = true ∧ s.port.readIdx < s.port.result.length then
               { s.port with
                 nibble := none, readIdx := s.port.readIdx + 1
                 ready := s.port.ready && decide (s.port.readIdx + 1 < s.port.result.length) }
             else { s.port with nibble := none })
           out := { s.out with data := v ++ 0#4 } }))

/-- R167: the port reset input, at any time: the frame goes as R99 gives, without a result, and the
result buffer, the latch, the staging byte and the width return to their values after power-on. -/
def Obligations.PortResetClearsThePort : Prop :=
  ∀ s : State,
    exec .portReset s = .next
      { s.dropFrame with
        port := { s.dropFrame.port with
          result := [], readIdx := 0, ready := false, latch := noDesig, fourBit := false, nibble := none }
        staging := none } ∧
    (∀ t, exec .portReset s = .next t →
      t.port.frame = none ∧ t.tablePtr = s.tablePtr ∧ t.port.enables = s.port.enables)

/-! ## Designators, port width and notices -/

/-- R164: a SEL command latches the first value of its kind, gives OK with 1, or OK with 0 where one is
latched already, and RANGE for a value that names nothing; that RANGE comes first is the model's choice
(log entry 32). R160, R166: PORT WIDTH sets the width and the nibble phase; NOTICE ENABLE, NOTICE CLEAR
and NOTICE READ act on the seven enables and causes, ignoring bit 7 of a mask. R166: the output NOTICE is
asserted exactly while an enabled cause is set and the latch is empty. -/
def Obligations.SelectorsWidthAndNotices : Prop :=
  (∀ (s : State) (b0 b1 b2 : Byte) (d : Latch),
     (s.lastArrives .selSubscriber [b0, b1] b2 d →
       let a := 65536 * b0.toNat + 256 * b1.toNat + b2.toNat
       exec (.selSubscriber (.last b2)) s = .next
         (if 4194303 < a then s.afterLast [0x07]
          else if s.port.latch.sub ≠ none then s.afterLast [0x00, 0]
          else (s.afterLast [0x00, 1]).setLatch { s.port.latch with sub := some a })) ∧
     (s.lastArrives .selAccount [b0] b1 d →
       let i := 256 * b0.toNat + b1.toNat
       exec (.selAccount (.last b1)) s = .next
         (if 1023 < i then s.afterLast [0x07]
          else if s.port.latch.acct ≠ none then s.afterLast [0x00, 0]
          else (s.afterLast [0x00, 1]).setLatch { s.port.latch with acct := some i })) ∧
     (s.lastArrives .selPage [b0] b1 d →
       exec (.selPage (.last b1)) s = .next
         (if s.port.latch.page ≠ none then s.afterLast [0x00, 0]
          else (s.afterLast [0x00, 1]).setLatch
            { s.port.latch with page := some { slot := b0.toNat, gen := b1.toNat } })) ∧
     (s.byteReady true false 0x04 → s.op = none → s.port.frame = none →
       exec .selClear s = .next (s.afterCode [0x00]))) ∧
  (∀ (s : State) (b : Byte) (d : Latch),
     (s.lastArrives .portWidth [] b d →
       exec (.portWidth (.last b)) s = .next
         (if b.toNat ≤ 1 then
           { s with port := { s.port.paired with
               fourBit := decide (b = 1), nibble := none, frame := none }.answered [0x00] }
          else s.afterLast [0x07])) ∧
     (s.lastArrives .noticeEnable [] b d →
       exec (.noticeEnable (.last b)) s = .next
         { s with port := ({ s.port.paired with frame := none, enables := b &&& 0x7F } : Port).answered [0x00] }) ∧
     (s.lastArrives .noticeClear [] b d →
       ∃ k, exec (.noticeClear (.last b)) s = .next
         { s with port := ({ s.port.paired with frame := none, causes := k } : Port).answered [0x00] } ∧
         ∀ j, j < 8 → k.getLsbD j = (s.port.causes.getLsbD j && !(decide (j < 7) && b.getLsbD j))) ∧
     (s.byteReady true false 0x08 → s.op = none → s.port.frame = none →
       exec .noticeRead s = .next
         { s with port := s.port.paired.answered [0x00, s.port.causes, s.port.enables] })) ∧
  (∀ s : State, s.port.causes.getLsbD 7 = false →
     (s.notice = true ↔
       (∃ k, k < 7 ∧ s.port.causes.getLsbD k = true ∧ s.port.enables.getLsbD k = true) ∧
         s.port.latch = noDesig))

/-! ## The directory -/

/-- R9, R10, R5, R21: ADD SUBSCRIBER makes its checks in order; one that passes sets busy and begins the
insertion of a record with the fields of R5, and every lookup not yet answered is held (R7). -/
def Obligations.AddSubscriberChecks : Prop :=
  ∀ (s : State) (k p h z o : Byte) (a i : Nat), s.lastArrives .addSubscriber [k, p, h, z] o (bothDesig a i) →
    exec (.addSubscriber (.last o)) s = .next
      (if s.op ≠ none then s.afterLast [0x05]
       else if ¬(k.toNat ≤ 7 ∧ p.toNat ≤ 7 ∧ h.toNat ≤ 1 ∧ z.toNat ≤ 15 ∧ o.toNat ≤ 1) then
         s.afterLast [0x07]
       else if ∃ r ∈ s.directory, r.addr = a then s.afterLast [0x03]
       else if 4096 - 512 * s.partition ≤ s.directory.length then s.afterLast [0x04]
       else if (s.acct i).state = .unused then s.afterLast [0x08]
       else
         { s.afterLast [0x00] with
           op := some (.addition
             { addr := a, state := .active, cls := k.toNat, account := i, profile := p.toNat
               home := if h = 0 then .A else .B, homeZone := z.toNat, zone := z.toNat, lastHeard := none
               oneWay := decide (o = 1), nextSerial := 0, live := 0
               mark := decide (s.markMode = .set) })
           lookups := s.lookups.map (fun l => { l with held := true }) })

/-- R8: READ SUBSCRIBER gives OK with every field of the record, or NO_RECORD with the no-record form,
and changes no field. The fields are those of R5, with the codes of R168, in the order that subscriberBytes
is said to have. R25: MEMORY STATUS gives the partition, the capacities and counts, the hold, the mark mode
and the cursor, and changes nothing. The two layouts are those of log entry 14. -/
def Obligations.ReadSubscriberAndMemoryStatus : Prop :=
  (∀ (s : State) (a : Nat), s.codeArrives .readSubscriber (subDesig a) →
     (∀ r, s.record a = some r →
       exec .readSubscriber s = .next (s.afterCode (0x00 :: subscriberBytes r))) ∧
     (s.record a = none →
       exec .readSubscriber s = .next (s.afterCode (0x02 :: List.replicate 19 0xFF)))) ∧
  (∀ r : Subscriber, subscriberBytes r =
     beBytes 3 r.addr
       ++ [match r.state with
           | .active => 0
           | .suspended => 1
           | .retiring => 2,
         BitVec.ofNat 8 r.cls]
       ++ beBytes 2 r.account
       ++ [BitVec.ofNat 8 r.profile, if r.home = .A then 0 else 1, BitVec.ofNat 8 r.homeZone,
         BitVec.ofNat 8 r.zone]
       ++ (match r.lastHeard with
           | none => [0xFF, 0xFF, 0xFF, 0xFF]
           | some x => beBytes 4 x)
       ++ [if r.oneWay then 1 else 0, BitVec.ofNat 8 r.nextSerial, BitVec.ofNat 8 r.live,
         if r.mark then 1 else 0]) ∧
  (∀ s : State, s.codeArrives .memoryStatus noDesig →
     exec .memoryStatus s = .next (s.afterCode
       ([0x00, byteOf s.partition] ++ beBytes 2 (4096 - 512 * s.partition) ++ beBytes 2 s.directory.length
         ++ beBytes 2 (512 + 512 * s.partition) ++ beBytes 2 s.freeBlocks.length
         ++ [flagByte s.poolHold, markModeByte s.markMode] ++ signedBytes s.cursorKey
         ++ [stepModeByte s.cursorMode])))

/-- R11, R21: WRITE FIELD makes its checks in order; one that passes writes the one field that its
selector names, of the one record, and applies the mark mode. R12, R21: LINK ACCOUNT makes its checks in
order; one that passes moves the record and the two reference counts, which stay where the account is the
one already named. -/
def Obligations.WriteFieldAndLinkAccount : Prop :=
  (∀ (s : State) (f v : Byte) (a : Nat), s.lastArrives .writeField [f] v (subDesig a) →
     let ok := (f = 0 ∧ v.toNat ≤ 7) ∨ (f = 1 ∧ v.toNat ≤ 7) ∨ (f = 2 ∧ v.toNat ≤ 1) ∨
       (f = 3 ∧ v.toNat ≤ 15) ∨ (f = 4 ∧ v.toNat ≤ 15) ∨ (f = 5 ∧ v.toNat ≤ 1)
     (s.op ≠ none → exec (.writeField (.last v)) s = .next (s.afterLast [0x05])) ∧
     (s.op = none → ¬ok → exec (.writeField (.last v)) s = .next (s.afterLast [0x07])) ∧
     (s.op = none → ok → s.record a = none → exec (.writeField (.last v)) s = .next (s.afterLast [0x02])) ∧
     (s.op = none → ok → ∀ r, s.record a = some r → r.state = .retiring →
       exec (.writeField (.last v)) s = .next (s.afterLast [0x05])) ∧
     (s.op = none → ok → ∀ r, s.record a = some r → r.state ≠ .retiring →
       exec (.writeField (.last v)) s = .next
         { s.afterLast [0x00] with
           directory := s.directory.map (fun q =>
             if q.addr = a then
               { q with
                 cls := if f = 0 then v.toNat else q.cls
                 profile := if f = 1 then v.toNat else q.profile
                 home := if f = 2 then (if v = 0 then .A else .B) else q.home
                 homeZone := if f = 3 then v.toNat else q.homeZone
                 zone := if f = 4 then v.toNat else q.zone
                 oneWay := if f = 5 then decide (v = 1) else q.oneWay
                 mark := (q.mark || decide (s.markMode = .set)) && decide (s.markMode ≠ .clear) }
             else q) })) ∧
  (∀ (s : State) (a i : Nat), s.codeArrives .linkAccount (bothDesig a i) →
     (s.record a = none → exec .linkAccount s = .next (s.afterCode [0x02])) ∧
     (∀ r, s.record a = some r → r.state = .retiring →
       exec .linkAccount s = .next (s.afterCode [0x05])) ∧
     (∀ r, s.record a = some r → r.state ≠ .retiring → (s.acct i).state = .unused →
       exec .linkAccount s = .next (s.afterCode [0x08])) ∧
     (∀ r, s.record a = some r → r.state ≠ .retiring → (s.acct i).state ≠ .unused →
       ∃ t, exec .linkAccount s = .next t ∧
         t = { s.afterCode [0x00] with
           accounts := t.accounts
           directory := s.directory.map (fun q =>
             if q.addr = a then
               { q with
                 account := i
                 mark := (q.mark || decide (s.markMode = .set)) && decide (s.markMode ≠ .clear) }
             else q) } ∧
         ∀ j, t.acct j =
           if r.account = i then s.acct j
           else if j = r.account then { s.acct j with refs := (s.acct j).refs - 1 }
           else if j = i then { s.acct j with refs := min 4096 ((s.acct j).refs + 1) }
           else s.acct j))

/-- R6, R13, R14, R21: SUSPEND, RESUME and RETIRE change the state of one record, apply the mark mode,
and are refused with NO_RECORD or STATE. RETIRE reports the live count and, where it is 0, begins the
removal. -/
def Obligations.RecordStateCommands : Prop :=
  ∀ (s : State) (a : Nat),
    let marked : SubState → State → State := fun st u =>
      { u with
        directory := s.directory.map (fun q =>
          if q.addr = a then
            { q with
              state := st
              mark := (q.mark || decide (s.markMode = .set)) && decide (s.markMode ≠ .clear) }
          else q) }
    (s.codeArrives .suspend (subDesig a) →
      (s.record a = none → exec .suspend s = .next (s.afterCode [0x02])) ∧
      (∀ r, s.record a = some r → r.state = .retiring →
        exec .suspend s = .next (s.afterCode [0x05])) ∧
      (∀ r, s.record a = some r → r.state ≠ .retiring →
        exec .suspend s = .next (marked .suspended (s.afterCode [0x00])))) ∧
    (s.codeArrives .resume (subDesig a) →
      (s.record a = none → exec .resume s = .next (s.afterCode [0x02])) ∧
      (∀ r, s.record a = some r →
        exec .resume s = .next (marked .active (s.afterCode [0x00])))) ∧
    (s.codeArrives .retire (subDesig a) →
      (s.record a = none → exec .retire s = .next (s.afterCode [0x02])) ∧
      (∀ r, s.record a = some r → r.state = .retiring →
        exec .retire s = .next (s.afterCode [0x05])) ∧
      (∀ r, s.record a = some r → r.state ≠ .retiring → 0 < r.live →
        exec .retire s = .next
          (marked .retiring (s.afterCode [0x00, BitVec.ofNat 8 r.live]))) ∧
      (∀ r, s.record a = some r → r.state ≠ .retiring → r.live = 0 →
        exec .retire s = .next
          { marked .retiring (s.afterCode [0x00, 0]) with
            op := some (.removal a false)
            lookups := s.lookups.map (fun l => { l with held := true }) }))

/-- R19, R21: CURSOR SET writes the key and the step mode, and MARK MODE the mark mode; a value outside
its range gives RANGE and changes nothing. R20, R22: with the directory in order, CURSOR READ finds the
record nearest to the key in the direction of the step mode, CURSOR READ MARKED the nearest marked one;
the record is reported as it stood, its mark is cleared by CURSOR READ MARKED only, and the key moves
past it except in HOLD mode. With no such record the result is NO_RECORD and nothing else changes. -/
def Obligations.CursorAndMarks : Prop :=
  (∀ (s : State) (b0 b1 b2 m : Byte),
     (s.lastArrives .cursorSet [b0, b1, b2] m noDesig →
       let key := 65536 * b0.toNat + 256 * b1.toNat + b2.toNat
       exec (.cursorSet (.last m)) s = .next
         (if 4194303 < key ∨ 2 < m.toNat then s.afterLast [0x07]
          else
           { s.afterLast [0x00] with
             cursorKey := key
             cursorMode := if m = 0 then .forward else if m = 1 then .backward else .hold })) ∧
     (s.lastArrives .markMode [] m noDesig →
       exec (.markMode (.last m)) s = .next
         (if 2 < m.toNat then s.afterLast [0x07]
          else
           { s.afterLast [0x00] with
             markMode := if m = 0 then .off else if m = 1 then .set else .clear }))) ∧
  (∀ (s : State) (marked : Bool),
     let c : Cmd := if marked then .cursorReadMarked else .cursorRead
     let ahead : Subscriber → Prop := fun q => (marked = true → q.mark = true) ∧
       (if s.cursorMode = .backward then (q.addr : Int) ≤ s.cursorKey else s.cursorKey ≤ (q.addr : Int))
     s.directory.Pairwise (fun p q => p.addr < q.addr) → s.codeArrives c noDesig →
     (∀ r ∈ s.directory, ahead r →
       (∀ q ∈ s.directory, ahead q → if s.cursorMode = .backward then q.addr ≤ r.addr else r.addr ≤ q.addr) →
       exec (codeRow c) s = .next
         { s.afterCode (0x00 :: subscriberBytes r) with
           cursorKey :=
             (match s.cursorMode with
             | .forward => (r.addr : Int) + 1
             | .backward => (r.addr : Int) - 1
             | .hold => s.cursorKey)
           directory :=
             if marked then s.directory.map (fun q => if q.addr = r.addr then { q with mark := false } else q)
             else s.directory }) ∧
     ((∀ q ∈ s.directory, ¬ahead q) →
       exec (codeRow c) s = .next (s.afterCode (0x02 :: List.replicate 19 0xFF))))

/-- R2, R18: PARTITION gives RANGE above 3, STATE where an entry is live, the directory does not fit or
an operation is in progress, and otherwise sets busy and begins the rebuild. R2, R24, R16: at the
completion of a rebuild the partition is in force, every block is free with block 0 on top, the watermark
hold is recomputed, and DONE is raised. -/
def Obligations.PartitionChecksAndRebuild : Prop :=
  (∀ (s : State) (p : Byte), s.lastArrives .partition [] p noDesig →
     exec (.partition (.last p)) s = .next
       (if 3 < p.toNat then s.afterLast [0x07]
        else if s.liveEntries ≠ [] ∨ 4096 - 512 * p.toNat < s.directory.length ∨ s.op ≠ none then
          s.afterLast [0x05]
        else
          { s.afterLast [0x00] with
            op := some (.rebuild p.toNat)
            lookups := s.lookups.map (fun l => { l with held := true }) })) ∧
  (∀ (s : State) (p : Nat), s.op = some (.rebuild p) →
     let hold := if 512 + 512 * p < s.lowMark then true
       else if s.highMark ≤ 512 + 512 * p then false else s.poolHold
     exec .partitionComplete s = .next
       { s with
         partition := p, freeBlocks := List.range (512 + 512 * p), poolHold := hold
         port := { s.port with
           causes := s.port.causes ||| (if hold && !s.poolHold then 0x44 else 0x40) }
         op := s.pendingRemovals.head?.map (fun a => .removal a true)
         pendingRemovals := s.pendingRemovals.tail })

/-- R10, R16: at the completion of an addition the record stands in the directory, which stays in order;
the account's reference count rises, DONE is raised, and the oldest pending removal begins or busy is
cleared. R17, R16: at the completion of a removal the record is gone and the others keep their order; the
reference count of its account falls, DONE is raised, and RETIRE_DONE too where a page ending began the
removal. -/
def Obligations.AdditionAndRemovalComplete : Prop :=
  (∀ (s : State) (r : Subscriber), s.op = some (.addition r) →
     ∃ t, exec .additionComplete s = .next t ∧
       (∀ q, q ∈ t.directory ↔ q = r ∨ q ∈ s.directory) ∧
       t.directory.length = s.directory.length + 1 ∧
       (s.directory.Pairwise (fun p q => p.addr < q.addr) → (∀ q ∈ s.directory, q.addr ≠ r.addr) →
         t.directory.Pairwise (fun p q => p.addr < q.addr)) ∧
       (∀ j, t.acct j =
         if j = r.account then { s.acct j with refs := min 4096 ((s.acct j).refs + 1) } else s.acct j) ∧
       t = { s with
         directory := t.directory, accounts := t.accounts
         port := { s.port with causes := s.port.causes ||| 0x40 }
         op := s.pendingRemovals.head?.map (fun a => .removal a true)
         pendingRemovals := s.pendingRemovals.tail }) ∧
  (∀ (s : State) (a : Nat) (byEnding : Bool) (r : Subscriber), s.op = some (.removal a byEnding) →
     s.record a = some r →
     ∃ t, exec .removalComplete s = .next t ∧
       (∀ j, t.acct j =
         if j = r.account then { s.acct j with refs := (s.acct j).refs - 1 } else s.acct j) ∧
       t = { s with
         directory := s.directory.filter (fun q => q.addr ≠ a), accounts := t.accounts
         port := { s.port with causes := s.port.causes ||| (if byEnding then 0x48 else 0x40) }
         op := s.pendingRemovals.head?.map (fun a => .removal a true)
         pendingRemovals := s.pendingRemovals.tail })

/-! ## Accounts and settlement -/

/-- R28, R31, R35: OPEN ACCOUNT opens an UNUSED account with the balance and credit limit given; WRITE
LIMIT writes the limit of an OPEN or BARRED one. Both compute the overrun flag, raise OVERRUN when it
goes from clear to set, and set the mark; on an account of another state they give STATE. R30, R35:
ADJUST BALANCE adds the signed delta, stops at the ends of the balance's range and says so, recomputes
the overrun flag and sets the mark, whatever the delta. OPEN ACCOUNT keeps held, the reference count and
the period counters of the UNUSED account as they are, and raises OVERRUN only where its flag was clear:
R28 says that they are 0 and clear, and for the one UNUSED account that a late event of a page charged 0
has touched this is the model's choice (log entry 31). -/
def Obligations.AccountFigures : Prop :=
  ((∀ (s : State) (b0 b1 b2 c0 c1 : Byte) (i : Nat),
     s.lastArrives .openAccount [b0, b1, b2, c0] c1 (acctDesig i) →
     let n := 65536 * b0.toNat + 256 * b1.toNat + b2.toNat
     let bal : Int := if n < 8388608 then n else (n : Int) - 16777216
     let cl := 256 * c0.toNat + c1.toNat
     ((s.acct i).state ≠ .unused → exec (.openAccount (.last c1)) s = .next (s.afterLast [0x05])) ∧
     ((s.acct i).state = .unused → ∃ t, exec (.openAccount (.last c1)) s = .next t ∧
       t.acct i = { s.acct i with
         state := .opened, balance := bal, cl := cl, overrun := decide (bal < -(cl : Int)), mark := true } ∧
       (∀ j, j ≠ i → t.acct j = s.acct j) ∧
       t = { (if bal < -(cl : Int) ∧ (s.acct i).overrun = false then (s.afterLast [0x00]).raise .overrun
              else s.afterLast [0x00]) with accounts := t.accounts })) ∧
   (∀ (s : State) (c0 c1 : Byte) (i : Nat), s.lastArrives .writeLimit [c0] c1 (acctDesig i) →
     let a := s.acct i
     let cl := 256 * c0.toNat + c1.toNat
     (a.state = .unused → exec (.writeLimit (.last c1)) s = .next (s.afterLast [0x05])) ∧
     (a.state ≠ .unused → ∃ t, exec (.writeLimit (.last c1)) s = .next t ∧
       t.acct i = { a with cl := cl, overrun := decide (a.balance < -(cl : Int)), mark := true } ∧
       (∀ j, j ≠ i → t.acct j = s.acct j) ∧
       t = { (if a.balance < -(cl : Int) ∧ a.overrun = false then (s.afterLast [0x00]).raise .overrun
              else s.afterLast [0x00]) with accounts := t.accounts }))) ∧
  (∀ (s : State) (b0 b1 b2 : Byte) (i : Nat), s.lastArrives .adjustBalance [b0, b1] b2 (acctDesig i) →
     let a := s.acct i
     let n := 65536 * b0.toNat + 256 * b1.toNat + b2.toNat
     let sum : Int := a.balance + (if n < 8388608 then (n : Int) else (n : Int) - 16777216)
     let bal : Int := if sum < -8388608 then -8388608 else if 8388607 < sum then 8388607 else sum
     (a.state = .unused → exec (.adjustBalance (.last b2)) s = .next (s.afterLast [0x05])) ∧
     (a.state ≠ .unused → ∃ t, exec (.adjustBalance (.last b2)) s = .next t ∧
       t.acct i = { a with balance := bal, overrun := decide (bal < -(a.cl : Int)), mark := true } ∧
       (∀ j, j ≠ i → t.acct j = s.acct j) ∧
       (let u := s.afterLast (0x00 :: signedBytes bal ++ [if bal = sum then 0 else 1])
        t = { (if bal < -(a.cl : Int) ∧ a.overrun = false then u.raise .overrun else u) with
           accounts := t.accounts })))

/-- R27, R29: BAR and UNBAR change the state of an account between OPEN and BARRED and set its mark; on
an account already in that state they change nothing, and on an UNUSED one they give STATE. R32, R33:
CLOSE ACCOUNT gives the final figures and leaves the account UNUSED with every field 0, unless it is
UNUSED (STATE) or its reference count or held is above 0 (REFERENCED); READ ACCOUNT reports every field
and changes nothing. The state codes are those of R168, and the layouts of the two results those of log
entry 14. READ ACCOUNT reports an UNUSED account with the figures that it holds: R27 and R33 say that they
are 0, and for one that a late event of a page charged 0 has touched this is the model's choice (log
entry 31). -/
def Obligations.BarCloseAndReadAccount : Prop :=
  (∀ (s : State) (i : Nat),
     (s.codeArrives .bar (acctDesig i) →
       ((s.acct i).state = .unused → exec .bar s = .next (s.afterCode [0x05])) ∧
       ((s.acct i).state = .barred → exec .bar s = .next (s.afterCode [0x00])) ∧
       ((s.acct i).state = .opened → ∃ t, exec .bar s = .next t ∧
         t.acct i = { s.acct i with state := .barred, mark := true } ∧
         (∀ j, j ≠ i → t.acct j = s.acct j) ∧ t = { s.afterCode [0x00] with accounts := t.accounts })) ∧
     (s.codeArrives .unbar (acctDesig i) →
       ((s.acct i).state = .unused → exec .unbar s = .next (s.afterCode [0x05])) ∧
       ((s.acct i).state = .opened → exec .unbar s = .next (s.afterCode [0x00])) ∧
       ((s.acct i).state = .barred → ∃ t, exec .unbar s = .next t ∧
         t.acct i = { s.acct i with state := .opened, mark := true } ∧
         (∀ j, j ≠ i → t.acct j = s.acct j) ∧ t = { s.afterCode [0x00] with accounts := t.accounts }))) ∧
  (∀ (s : State) (i : Nat),
     let a := s.acct i
     (s.codeArrives .closeAccount (acctDesig i) →
       (a.state = .unused → exec .closeAccount s = .next (s.afterCode [0x05])) ∧
       (a.state ≠ .unused → (0 < a.refs ∨ 0 < a.held) →
         exec .closeAccount s = .next (s.afterCode [0x08])) ∧
       (a.state ≠ .unused → a.refs = 0 → a.held = 0 → ∃ t, exec .closeAccount s = .next t ∧
         t.acct i = unusedAccount ∧ (∀ j, j ≠ i → t.acct j = s.acct j) ∧
         t = { s.afterCode (0x00 :: [acctStateByte a.state] ++ signedBytes a.balance ++ beBytes 2 a.cl
                 ++ [flagByte a.overrun] ++ counterBytes a) with accounts := t.accounts })) ∧
     (s.codeArrives .readAccount (acctDesig i) →
       exec .readAccount s = .next (s.afterCode
         (0x00 :: [acctStateByte a.state] ++ signedBytes a.balance ++ beBytes 2 a.cl ++ beBytes 3 a.held
           ++ [flagByte a.overrun] ++ beBytes 2 a.refs ++ [flagByte a.mark] ++ counterBytes a)))) ∧
  ([.unused, .opened, .barred] : List AcctState).map acctStateByte = [0, 1, 2] ∧
  (∀ a : Account, counterBytes a =
     beBytes 2 a.accepted ++ beBytes 2 a.delivered ++ beBytes 2 a.sentOnly ++ beBytes 2 a.expired
       ++ beBytes 2 a.cancelled ++ beBytes 2 a.aborted ++ beBytes 3 a.attempts ++ beBytes 3 a.charged
       ++ beBytes 3 a.refunded)

/-- R155: SETTLE BEGIN sets the cursor to 0, whatever it was, returns OK, and changes no account, no mark
and no counter. -/
def Obligations.SettleBeginRestartsTheSweep : Prop :=
  ∀ s : State, s.codeArrives .settleBegin noDesig →
    exec .settleBegin s = .next { s.afterCode [0x00] with settleCursor := 0 }

/-- R156, R157: SETTLE READ returns the first marked account at or above the cursor as it stands, clears
its nine period counters and its mark, and moves the cursor past it; with no marked account left it gives
NO_RECORD with an account part of zeros and leaves the cursor at 1,024. The bytes of the result are those
of log entry 14, and the mark alone decides (log entry 31). -/
def Obligations.SettleReadSweeps : Prop :=
  ∀ s : State, s.codeArrives .settleRead noDesig →
    (∀ i, s.settleCursor ≤ i → i < 1024 → (s.acct i).mark = true →
      (∀ j, s.settleCursor ≤ j → j < i → (s.acct j).mark = false) →
      ∃ t, exec .settleRead s = .next t ∧
        t.acct i = { s.acct i with
          mark := false, accepted := 0, delivered := 0, sentOnly := 0, expired := 0, cancelled := 0
          aborted := 0, attempts := 0, charged := 0, refunded := 0 } ∧
        (∀ j, j ≠ i → t.acct j = s.acct j) ∧
        t = { s.afterCode (0x00 :: (beBytes 2 i ++ [acctStateByte (s.acct i).state]
                ++ signedBytes (s.acct i).balance ++ beBytes 3 (s.acct i).held ++ beBytes 2 (s.acct i).cl
                ++ [flagByte (s.acct i).overrun] ++ counterBytes (s.acct i))) with
          accounts := t.accounts, settleCursor := i + 1 }) ∧
    ((∀ j, s.settleCursor ≤ j → j < 1024 → (s.acct j).mark = false) →
      exec .settleRead s = .next
        { s.afterCode (0x02 :: List.replicate 33 0) with settleCursor := 1024 })

/-! ## The Setting Tables -/

/-- R40, R41: TABLE POINTER sets the pointer, and TABLE READ returns bytes from it upward, wrapping from
2,047 to 0; both abandon a partly written field. A byte read is that of the field in force, most
significant byte first, and 0 at an address that is not assigned (R172). An address above 2,047 and a count outside 1..64 give
RANGE and change nothing. R41: a taken TABLE WRITE applies its data bytes one after another. Each byte
advances the pointer by one, wrapping from 2,047 to 0. At an address that is not assigned it is dropped.
At a one-byte field it is clamped to the field's range and takes effect at once: tariff rows and
multipliers (R38, R39), max attempts (R119), enables, dispositions and peers of routing (R81), receiver
zone entries (R138), Hup and Hdown (R146) and idle timeouts (R76) change that setting alone; t1 raises a
t2 below it, and t2 is not put below t1 (R119); a FIFO threshold recomputes the fill hold of its line
(R62, R76). The level enables and the boot level are in WatermarkAndEnableWrites. -/
def Obligations.TablePointerReadAndWrite : Prop :=
  let field : Nat → Option (Nat × Nat) := fun a =>
    if a < 0x34 then some (a, 1)
    else if a < 0x38 then some (a - a % 2, 2)
    else if 0x40 ≤ a ∧ a < 0xC0 then
      (if a % 16 < 3 then some (a, 1) else if a % 16 < 9 then some (a - (a % 16 + 1) % 2, 2) else none)
    else if 0xC0 ≤ a ∧ a < 0x140 then
      (if a % 16 = 0 ∨ a % 16 = 7 ∨ a % 16 = 8 then some (a, 1)
       else if a % 16 < 7 then some (a - (a % 16 - 1) % 3, 3) else none)
    else if a = 0x140 ∨ a = 0x141 ∨ (0x150 ≤ a ∧ a < 0x158) ∨ (0x16C ≤ a ∧ a < 0x172) ∨
        (0x180 ≤ a ∧ a < 0x188) then some (a, 1)
    else if (0x160 ≤ a ∧ a < 0x16C) ∨ (0x200 ≤ a ∧ a < 0x220) ∨ (0x240 ≤ a ∧ a < 0x260) ∨
        (0x280 ≤ a ∧ a < 0x284) then some (a - a % 2, 2)
    else none
  let byteAt : State → Nat → Byte := fun s a =>
    match field a with
    | none => 0
    | some (first, width) => BitVec.ofNat 8 (s.setting first / 256 ^ (width - 1 - (a - first)))
  ((∀ (s : State) (b0 b1 : Byte), s.lastArrives .tablePointer [b0] b1 noDesig →
     let a := 256 * b0.toNat + b1.toNat
     exec (.tablePointer (.last b1)) s = .next
       (if 2047 < a then s.afterLast [0x07]
        else { s.afterLast [0x00] with tablePtr := a, staging := none })) ∧
   (∀ (s : State) (n : Byte), s.lastArrives .tableRead [] n noDesig →
     exec (.tableRead (.last n)) s = .next
       (if n = 0 ∨ 64 < n.toNat then s.afterLast [0x07]
        else
         { s.afterLast
             (0x00 :: (List.range n.toNat).map (fun k => byteAt s ((s.tablePtr + k) % 2048))) with
           tablePtr := (s.tablePtr + n.toNat) % 2048, staging := none }))) ∧
  ((∀ (s : State) (n : Byte), s.lastArrives .tableWrite [] n noDesig → s.op = none →
     (n = 0 ∨ 64 < n.toNat) → exec (.tableWrite (.last n)) s = .next (s.afterLast [0x07])) ∧
   (∀ (s : State) (n b : Byte) (bs : List Byte), s.lastArrives .tableWrite (n :: bs) b noDesig → s.op = none →
     n.toNat = bs.length + 1 → n.toNat ≤ 64 →
     exec (.tableWrite (.last b)) s =
       .next (((bs ++ [b]).foldl State.writeTableByte s).afterLast [0x00]))) ∧
  (∀ (s : State) (b : Byte),
     let p := s.tablePtr
     let v := b.toNat
     let u := s.writeTableByte b
     let moved : State := { s with tablePtr := (p + 1) % 2048 }
     let range : Option (Nat × Nat) :=
       if p < 0x30 then
         some (if p % 6 = 1 then (1, 4) else if p % 6 = 2 ∨ p % 6 = 4 then (0, 63)
           else if p % 6 = 5 then (0, 8) else (0, 255))
       else if p < 0x34 then some (16, 64)
       else if 0x40 ≤ p ∧ p < 0xC0 ∧ p % 16 = 0 then some (1, 15)
       else if 0xC0 ≤ p ∧ p < 0x140 ∧ p % 16 = 0 then some (0, 1)
       else if 0xC0 ≤ p ∧ p < 0x140 ∧ p % 16 = 7 ∨ p = 0x140 then some (0, 2)
       else if 0xC0 ≤ p ∧ p < 0x140 ∧ p % 16 = 8 ∨ p = 0x141 then some (0, 15)
       else if 0x150 ≤ p ∧ p < 0x158 then some (if p % 2 = 0 then (0, 1) else (0, 15))
       else if p = 0x16C ∨ p = 0x16D then some (1, 15)
       else if 0x180 ≤ p ∧ p < 0x188 ∧ p % 2 = 1 then some (1, 60)
       else none
     (field p = none → u = moved) ∧
     (∀ lo hi, range = some (lo, hi) →
       u.setting p = max lo (min hi v) ∧ (∀ a, a ≠ p → u.setting a = s.setting a) ∧
       u = { moved with settings := u.settings }) ∧
     (0x40 ≤ p → p < 0xC0 → p % 16 = 1 →
       let t1 := max 1 (min 15 v)
       u.setting p = t1 ∧ u.setting (p + 1) = max t1 (s.setting (p + 1)) ∧
       (∀ a, a ≠ p → a ≠ p + 1 → u.setting a = s.setting a) ∧ u = { moved with settings := u.settings }) ∧
     (0x40 ≤ p → p < 0xC0 → p % 16 = 2 →
       u.setting p = max (max 1 (min 15 v)) (s.setting (p - 1)) ∧
       (∀ a, a ≠ p → u.setting a = s.setting a) ∧ u = { moved with settings := u.settings }) ∧
     (∀ n : LineNo, p = 0x180 + 2 * n.val →
       let h := max 8 (min 60 v)
       let l := s.line n
       u.setting p = h ∧ (∀ a, a ≠ p → u.setting a = s.setting a) ∧
       u = { moved.setLine n { l with
               fillHold := if h ≤ l.fifo.length then true
                 else if l.fifo.length + 8 ≤ h then false else l.fillHold } with
             settings := u.settings }))

/-- R24, R41: the low watermark, written with its pointer at 034H. One byte goes to the staging byte and
the setting stands; with the second byte the field is clamped to 2,048 and takes effect, a high watermark
below it is raised to it, the hold is recomputed, and POOL_HOLD is raised when the hold goes up. R150,
R152: a level enable, its pointer at 16DH + l, or the boot level, at 171H. While the monitor is enabled,
a channel standing at a level that is written off moves to the next lower enabled level and no other
write moves a channel; while it is disabled, a changed enable and any boot level take both to the
effective boot level as the write leaves it. R41: one byte at a field of two or three bytes. The first is
staged in place of anything staged; a later one joins the earlier bytes of its field, or is dropped with
the staging byte emptied where they are not there; with the last the field takes effect, clamped to its
range: windows, caps and lifetimes (R119), routing bases and limits (R81), thresholds (R146), masks
(R120), and the high watermark, clamped up to the low one with the hold recomputed (R24). -/
def Obligations.WatermarkAndEnableWrites : Prop :=
  (∀ (s : State) (b0 b1 : Byte), s.op = none → s.tablePtr = 0x34 →
     (s.lastArrives .tableWrite [1] b0 noDesig →
       exec (.tableWrite (.last b0)) s = .next
         { s.afterLast [0x00] with
           tablePtr := 0x35, staging := some { first := 0x34, bytes := [b0] } }) ∧
     (s.lastArrives .tableWrite [2, b0] b1 noDesig →
       let low := min 2048 (256 * b0.toNat + b1.toNat)
       let high := max low s.highMark
       let hold := if s.freeBlocks.length < low then true
         else if high ≤ s.freeBlocks.length then false else s.poolHold
       ∃ t, exec (.tableWrite (.last b1)) s = .next t ∧
         t.lowMark = low ∧ t.highMark = high ∧
         (∀ a, a ≠ 0x34 → a ≠ 0x36 → t.setting a = s.setting a) ∧
         t = { (if hold && !s.poolHold then (s.afterLast [0x00]).raise .poolHold else s.afterLast [0x00]) with
           settings := t.settings, tablePtr := 0x36, staging := none, poolHold := hold })) ∧
  (∀ (s : State) (b : Byte), s.op = none → s.lastArrives .tableWrite [1] b noDesig →
     let p := s.tablePtr
     let takes : Nat → (State → Chan → Nat) → Prop := fun v next =>
       ∃ t, exec (.tableWrite (.last b)) s = .next t ∧
         t.setting p = v ∧ (∀ a, a ≠ p → t.setting a = s.setting a) ∧
         (∀ c, let m := s.mon c
           t.mon c = if m.level = next t c then m
             else { m with level := next t c, up := 0, down := 0, residency := 0 }) ∧
         t.port = { (s.afterLast [0x00]).port with
           causes := if t.mons = s.mons then s.port.causes else s.port.causes ||| 0x01 } ∧
         t = { s with port := t.port, settings := t.settings, mons := t.mons, tablePtr := p + 1 }
     (∀ l, 1 ≤ l → l ≤ 3 → p = 0x16D + l →
       takes (min 1 b.toNat) (fun t c =>
         if s.setting p = min 1 b.toNat then (s.mon c).level
         else if s.monitorOn = false then t.effectiveBoot
         else if b = 0 ∧ (s.mon c).level = l then s.nextLower l
         else (s.mon c).level)) ∧
     (p = 0x171 →
       takes (min 3 b.toNat) (fun t c => if s.monitorOn then (s.mon c).level else t.effectiveBoot))) ∧
  (∀ (s : State) (b : Byte),
     let p := s.tablePtr
     let u := s.writeTableByte b
     let moved : State := { s with tablePtr := (p + 1) % 2048 }
     let field : Option (Nat × Nat × Nat × Nat) :=
       if 0x34 ≤ p ∧ p < 0x38 then some (p - p % 2, 2, 0, 2048)
       else if 0x40 ≤ p ∧ p < 0xC0 ∧ 3 ≤ p % 16 ∧ p % 16 ≤ 6 then some (p - (p % 16 + 1) % 2, 2, 1, 1023)
       else if 0x40 ≤ p ∧ p < 0xC0 ∧ 7 ≤ p % 16 ∧ p % 16 ≤ 8 then some (p - (p % 16 + 1) % 2, 2, 60, 65535)
       else if 0xC0 ≤ p ∧ p < 0x140 ∧ 1 ≤ p % 16 ∧ p % 16 ≤ 6 then some (p - (p % 16 - 1) % 3, 3, 0, 4194303)
       else if 0x160 ≤ p ∧ p < 0x16C then some (p - p % 2, 2, 0, 4095)
       else if (0x200 ≤ p ∧ p < 0x220) ∨ (0x240 ≤ p ∧ p < 0x260) ∨ (0x280 ≤ p ∧ p < 0x284) then
         some (p - p % 2, 2, 0, 65535)
       else none
     ∀ first width lo hi, field = some (first, width, lo, hi) →
       (p = first → u = { moved with staging := some { first := first, bytes := [b] } }) ∧
       (p ≠ first →
         (∀ st, s.staging = some st → st.first ≠ first ∨ st.bytes.length ≠ p - first) →
         u = { moved with staging := none }) ∧
       (∀ bs : List Byte, p ≠ first → s.staging = some { first := first, bytes := bs } →
         first + bs.length = p →
         (p + 1 < first + width →
           u = { moved with staging := some { first := first, bytes := bs ++ [b] } }) ∧
         (p + 1 = first + width →
           let v := max lo (min hi ((bs ++ [b]).foldl (fun x y => 256 * x + y.toNat) 0))
           (first ≠ 0x34 → first ≠ 0x36 →
             u.setting first = v ∧ (∀ a, a ≠ first → u.setting a = s.setting a) ∧
             u = { moved with staging := none, settings := u.settings }) ∧
           (first = 0x36 →
             let high := max v s.lowMark
             let hold := if s.freeBlocks.length < s.lowMark then true
               else if high ≤ s.freeBlocks.length then false else s.poolHold
             u.setting 0x36 = high ∧ (∀ a, a ≠ 0x36 → u.setting a = s.setting a) ∧
             u = { moved with
               staging := none, settings := u.settings, poolHold := hold
               port := { s.port with
                 causes := if hold && !s.poolHold then s.port.causes ||| 0x04 else s.port.causes } }))))

/-! ## Intake Lines -/

/-- R60, R61, R62: a byte on an enabled line with room joins the tail of the FIFO, and the fill hold
follows the count with its hysteresis of eight; on a DISABLED line it is lost; at a full FIFO it sets the
overflow flag and aborts the line. R64: in IDLE a byte that is not START is
discarded as junk; a START is taken into a new header with the receipt slot empty and the watermark hold
down, and is held otherwise. -/
def Obligations.IntakeBytesAndIdle : Prop :=
  (∀ (s : State) (n : LineNo) (b : Byte), s.op ≠ some .autoclear →
     let l := s.line n
     let count := l.fifo.length + 1
     let h := s.threshold n
     (l.state = .disabled → exec (.intakeByte n b) s = .next s) ∧
     (l.state ≠ .disabled → l.fifo.length < 64 → exec (.intakeByte n b) s = .next
       (s.setLine n { l with
         fifo := l.fifo ++ [b]
         fillHold := if h ≤ count then true else if count + 8 ≤ h then false else l.fillHold })) ∧
     (l.state ≠ .disabled → l.fifo.length = 64 → exec (.intakeByte n b) s = .next
       ((s.setLine n { l with overflow := true }).abortLine n .fifoOverrun))) ∧
  (∀ (s : State) (n : LineNo) (b : Byte) (rest : List Byte),
     (s.line n).state = .idle → (s.line n).fifo = b :: rest →
     let l := s.line n
     let h := s.threshold n
     let taken : Line := { l with
       fifo := rest
       fillHold := if h ≤ rest.length then true else if rest.length + 8 ≤ h then false else l.fillHold }
     8 ≤ h →
     (b ≠ 0x7E → exec (.idleByte n) s = .next
       (s.setLine n { taken with junk := min 65535 (l.junk + 1) })) ∧
     (b = 0x7E → l.receipt = none → s.poolHold = false → exec (.idleByte n) s = .next
       (s.setLine n { taken with state := .header, header := [], sum := 0, timer := 0 })) ∧
     (b = 0x7E → (l.receipt ≠ none ∨ s.poolHold = true) →
       exec (.idleByte n) s = .next s ∧ s.lineHold n = true))

/-- R65, R67, R79: in HEADER the line takes a byte into its header store and running sum. The fifth
brings it to LOOKUP with an admission request outstanding, or to SKIP with a REFUSED receipt where the
length or the routing refuses it at once. R81: the first enabled range that holds an address decides its
disposition, and the default where none does. -/
def Obligations.HeaderBytesAndRouting : Prop :=
  (∀ (s : State) (n : LineNo) (b : Byte) (rest : List Byte),
     (s.line n).state = .header → (s.line n).fifo = b :: rest → 8 ≤ s.threshold n →
     let l := s.line n
     let h := s.threshold n
     let taken : Line := { l with
       fifo := rest
       fillHold := if h ≤ rest.length then true else if rest.length + 8 ≤ h then false else l.fillHold
       header := l.header ++ [b], sum := l.sum + b, timer := 0 }
     (l.header.length ≠ 4 → exec (.headerByte n) s = .next (s.setLine n taken)) ∧
     (l.header.length = 4 →
       let hd := headerOf (l.header ++ [b])
       let refused : Reason → Nat → Line := fun reason peer => { taken with
         state := .skip, remaining := b.toNat + 1, receipt := some (.refused reason peer)
         refused := min 65535 (l.refused + 1) }
       hd.len = b.toNat ∧
       (240 < b.toNat → exec (.headerByte n) s = .next (s.setLine n (refused .length 0))) ∧
       (b.toNat ≤ 240 → ∀ p, s.disposition hd.addr = .foreign p →
         exec (.headerByte n) s = .next (s.setLine n (refused .foreign p))) ∧
       (b.toNat ≤ 240 → s.disposition hd.addr = .blocked →
         exec (.headerByte n) s = .next (s.setLine n (refused .blocked 0))) ∧
       (b.toNat ≤ 240 → s.disposition hd.addr = .localOffice →
         exec (.headerByte n) s = .next
           { s.setLine n { taken with state := .lookup } with
             lookups := s.lookups ++ [{ user := .admission (.line n) hd
                                        held := s.op.isSome || !s.pendingRemovals.isEmpty }] }))) ∧
  (∀ (s : State) (a : Nat),
     let hit : Nat → Prop := fun r => s.setting (0xC0 + 16 * r) = 1 ∧ s.setting (0xC1 + 16 * r) ≤ a ∧
       a ≤ s.setting (0xC4 + 16 * r)
     let disp : Nat → Nat → Disposition := fun code peer =>
       if code = 0 then .localOffice else if code = 1 then .foreign peer else .blocked
     (∀ r, r < 8 → hit r → (∀ q, q < r → ¬hit q) →
       s.disposition a = disp (s.setting (0xC7 + 16 * r)) (s.setting (0xC8 + 16 * r))) ∧
     ((∀ r, r < 8 → ¬hit r) → s.disposition a = disp (s.setting 0x140) (s.setting 0x141)))

/-- R68: in TEXT the line writes byte number k of the page to position k mod 16 of block k div 16 of its
entry, adds it to the running sum, and enters CHECK with the last one. R69, R90: in CHECK a byte that
brings the sum to 0 completes the entry: its launch is asked for, and the receipt ACCEPTED is written;
another byte ends the entry ABORTED and writes REFUSED(BAD_CHECK). The line returns to IDLE, unbound.
R70: in SKIP the line discards a byte and returns to IDLE after the last. -/
def Obligations.TextCheckAndSkipBytes : Prop :=
  (∀ (s : State) (n : LineNo) (b : Byte) (rest : List Byte) (t : Tag) (e : Entry) (k block : Nat),
     (s.line n).state = .text → (s.line n).fifo = b :: rest →
     (s.line n).bound = some t → s.entry t = some e → 1 ≤ (s.line n).remaining →
     e.len = k + (s.line n).remaining → e.blocks[k / 16]? = some block →
     4096 - 512 * s.partition + block < 4608 → 8 ≤ s.threshold n →
     let l := s.line n
     let h := s.threshold n
     let a := 16 * (4096 - 512 * s.partition + block) + k % 16
     ∃ u, exec (.textByte n) s = .next u ∧
       cellRead u.text a = some b ∧ (∀ a', a' ≠ a → cellRead u.text a' = cellRead s.text a') ∧
       u = { s.setLine n { l with
               fifo := rest
               fillHold := if h ≤ rest.length then true else if rest.length + 8 ≤ h then false else l.fillHold
               sum := l.sum + b, remaining := l.remaining - 1, timer := 0
               state := if l.remaining = 1 then .check else .text } with
             text := u.text }) ∧
  (∀ (s : State) (n : LineNo) (b : Byte) (rest : List Byte) (t : Tag) (e : Entry),
     (s.line n).state = .check → (s.line n).fifo = b :: rest →
     (s.line n).bound = some t → s.entry t = some e → 8 ≤ s.threshold n →
     (∀ m, m ≠ n → (s.line m).bound ≠ some t) →
     let l := s.line n
     let h := s.threshold n
     let taken : Line := { l with
       fifo := rest
       fillHold := if h ≤ rest.length then true else if rest.length + 8 ≤ h then false else l.fillHold
       sum := l.sum + b, bound := none, timer := 0, state := .idle }
     (l.sum + b = 0 → exec (.checkByte n) s = .next
       { s.setLine n { taken with
           receipt := some (.accepted t e.serial), accepted := min 65535 (l.accepted + 1) } with
         lookups := s.lookups ++
           [{ user := .launch t, held := s.op.isSome || !s.pendingRemovals.isEmpty }] }) ∧
     (l.sum + b ≠ 0 → exec (.checkByte n) s = .next
       ((s.endEntry .aborted t).setLine n { taken with
         receipt := some (.refused .badCheck 0), refused := min 65535 (l.refused + 1) }))) ∧
  (∀ (s : State) (n : LineNo) (b : Byte) (rest : List Byte),
     (s.line n).state = .skip → (s.line n).fifo = b :: rest → 1 ≤ (s.line n).remaining →
     8 ≤ s.threshold n →
     let l := s.line n
     let h := s.threshold n
     exec (.skipByte n) s = .next
       (s.setLine n { l with
         fifo := rest
         fillHold := if h ≤ rest.length then true else if rest.length + 8 ≤ h then false else l.fillHold
         remaining := l.remaining - 1, timer := 0, state := if l.remaining = 1 then .idle else .skip }))

/-- R72: a line abort ends the bound entry ABORTED, withdraws the request, empties the line, and writes
the receipt that its cause gives, none from SKIP and none for the two commands. R71: at a tick taken by a
line in HEADER, TEXT, CHECK or SKIP the timer rises by one, and at the idle timeout or above the line
aborts with cause TIMEOUT; in another state the tick leaves the line. IDLE_TIMEOUT is the tick of a line
that takes it after the Office Clock (the model's choice, log entry 5). -/
def Obligations.AbortsOfALine : Prop :=
  (∀ (s : State) (n : LineNo) (c : AbortCause),
     let l := s.line n
     let u := match l.bound with
       | some t => s.endEntry .aborted t
       | none => s
     let emptied : Line := { l with
       state := if c = .disable then .disabled else .idle
       fifo := [], fillHold := false, header := [], sum := 0, remaining := 0, bound := none, timer := 0 }
     let refused : Reason → Line := fun reason => { emptied with
       receipt := some (.refused reason 0), refused := min 65535 (l.refused + 1) }
     s.abortLine n c =
       { u with
         lookups := u.lookups.filter (fun k => !isRequestOf (.line n) k.user)
         lines := u.lines.put n
           (if l.state = .skip then emptied
            else match c with
             | .fifoOverrun => refused .fifoOverrun
             | .timeout => refused .timeout
             | .flush | .disable => emptied) }) ∧
  (∀ (s : State) (n : LineNo),
     let l := s.line n
     let counting := l.state = .header ∨ l.state = .text ∨ l.state = .check ∨ l.state = .skip
     let timer := min 60 (l.timer + 1)
     (¬counting → s.tickLine n = s) ∧
     (counting → timer < s.idleLimit n → s.tickLine n = s.setLine n { l with timer := timer }) ∧
     (counting → s.idleLimit n ≤ timer → s.tickLine n = s.abortLine n .timeout) ∧
     (l.tickDue = true →
       exec (.idleTimeout n) s = .next ((s.setLine n { l with tickDue := false }).tickLine n)) ∧
     (l.tickDue = false → exec (.idleTimeout n) s = .next s))

/-- R74, R169: a fetch sends the receipt and empties the slot, or sends NONE and sets the underflow flag;
a request that meets the answer before it still being sent is discarded. R75, R76: the line commands,
each on the line of its first argument, RANGE above 3. LINE ENABLE takes a DISABLED line to IDLE; LINE
DISABLE and LINE FLUSH abort the line; LINE CLEAR clears the items of its mask. LINE STATUS changes nothing
and reports the line state, the byte count, HOLD and the fill hold, whether a START at the head is held and
for which of its two causes (R64), the idle timer, the bytes remaining, the bound tag or FFH twice, whether
a request is outstanding, whether the receipt slot is full, the two flags, and the three counters, with the
codes of R168. The layout is that of log entry 14. -/
def Obligations.FetchesAndLineCommands : Prop :=
  (∀ (s : State) (n : LineNo), s.op ≠ some .autoclear →
     exec (.receiptFetch n true) s = .next s ∧
     ((s.line n).receipt = none → exec (.receiptFetch n false) s = .next
       ((s.setLine n { s.line n with underflow := true }).setRcv n [0x00, 0, 0, 0])) ∧
     (∀ t v, (s.line n).receipt = some (.accepted t v) → exec (.receiptFetch n false) s = .next
       ((s.setLine n { s.line n with receipt := none }).setRcv n
         [0x01, BitVec.ofNat 8 t.slot, BitVec.ofNat 8 t.gen, BitVec.ofNat 8 v])) ∧
     (∀ r p, (s.line n).receipt = some (.refused r p) → exec (.receiptFetch n false) s = .next
       ((s.setLine n { s.line n with receipt := none }).setRcv n
         [0x02, BitVec.ofNat 8 (reasonCode r), BitVec.ofNat 8 p, 0]))) ∧
  (∀ (s : State) (b m : Byte), s.op = none →
     (∀ c ∈ ([.lineEnable, .lineDisable, .lineFlush, .lineStatus] : List Cmd), ∀ i, lastRow c b = some i →
       s.lastArrives c [] b noDesig → 3 < b.toNat → exec i s = .next (s.afterLast [0x07])) ∧
     (s.lastArrives .lineClear [b] m noDesig → 3 < b.toNat →
       exec (.lineClear (.last m)) s = .next (s.afterLast [0x07])) ∧
     (∀ n : LineNo, b = BitVec.ofNat 8 n.val →
       let l := s.line n
       (s.lastArrives .lineEnable [] b noDesig → exec (.lineEnable (.last b)) s = .next
         (if l.state = .disabled then
           (s.afterLast [0x00]).setLine n { l with state := .idle, timer := 0 }
          else s.afterLast [0x05])) ∧
       (s.lastArrives .lineDisable [] b noDesig → exec (.lineDisable (.last b)) s = .next
         (if l.state = .disabled then s.afterLast [0x00]
          else
           let u := (s.setPort { s.port.paired with frame := none }).abortLine n .disable
           u.setPort (u.port.answered [0x00]))) ∧
       (s.lastArrives .lineFlush [] b noDesig → exec (.lineFlush (.last b)) s = .next
         (if l.state = .disabled then s.afterLast [0x05]
          else
           let u := (s.setPort { s.port.paired with frame := none }).abortLine n .flush
           u.setPort (u.port.answered [0x00]))) ∧
       (s.lastArrives .lineStatus [] b noDesig →
         let start : Bool := decide (l.state = .idle) && decide (l.fifo.head? = some 0x7E)
         let forReceipt := start && l.receipt.isSome
         let forPool := start && s.poolHold
         exec (.lineStatus (.last b)) s = .next (s.afterLast
           ([0x00, lineStateByte l.state, BitVec.ofNat 8 l.fifo.length,
             if l.state = .disabled ∨ l.fillHold = true ∨ forReceipt = true ∨ forPool = true then 1 else 0,
             if l.fillHold then 1 else 0,
             (if forReceipt then 1 else 0) + (if forPool then 2 else 0), BitVec.ofNat 8 l.timer]
             ++ beBytes 2 l.remaining
             ++ (match l.bound with
                 | none => [0xFF, 0xFF]
                 | some t => [BitVec.ofNat 8 t.slot, BitVec.ofNat 8 t.gen])
             ++ [if s.lookups.any (fun k =>
                   match k.user with
                   | .admission (.line m) _ => decide (m = n)
                   | _ => false) then 1 else 0,
               if l.receipt.isSome then 1 else 0, if l.overflow then 1 else 0, if l.underflow then 1 else 0]
             ++ beBytes 2 l.junk ++ beBytes 2 l.accepted ++ beBytes 2 l.refused))) ∧
       (s.lastArrives .lineClear [b] m noDesig → exec (.lineClear (.last m)) s = .next
         ((s.afterLast [0x00]).setLine n { l with
           overflow := l.overflow && !m.getLsbD 0
           underflow := l.underflow && !m.getLsbD 1
           junk := if m.getLsbD 2 then 0 else l.junk
           accepted := if m.getLsbD 3 then 0 else l.accepted
           refused := if m.getLsbD 4 then 0 else l.refused })))) ∧
  ([.disabled, .idle, .header, .lookup, .text, .check, .skip] : List LineState).map lineStateByte =
    [0, 1, 2, 3, 4, 5, 6] ∧
  ([.length, .foreign, .blocked, .unknown, .suspended, .retired, .barred, .liveLimit, .tableFull, .poolFull,
    .noCredit, .badCheck, .timeout, .fifoOverrun] : List Reason).map reasonCode =
    [1, 2, 3, 4, 5, 6, 7, 8, 9, 10, 11, 12, 13, 14]

/-! ## Charges and admission -/

/-- R44, R45, R46: the charge of a page of `n` characters, `b` being its billable blocks, ceil((n - F) /
16); and the bounds that the rules give for rows, lengths and multipliers in range. -/
def Obligations.ChargeFormula : Prop :=
  ∀ (s : State) (cls n b : Nat) (c : Chan) (p : Priority),
    n - s.tariffF cls ≤ 16 * b → 16 * b < n - s.tariffF cls + 16 →
    let raw := s.tariffB cls * (if p = .urgent then s.tariffU cls else 1) + b * s.tariffP cls
    s.chargeFor cls c n p = min 4095 ((raw * s.m16 (s.mon c).level + 8) / 16) ∧
    s.chargeFor cls c n p ≤ 4095 ∧
    (n ≤ 240 → b ≤ 15 ∧ (b = 15 ↔ s.tariffF cls + 225 ≤ n)) ∧
    (n ≤ 240 → s.tariffB cls ≤ 255 → 1 ≤ s.tariffU cls → s.tariffU cls ≤ 4 → s.tariffP cls ≤ 63 →
      raw ≤ 1965 ∧
      (s.m16 (s.mon c).level = 16 → s.chargeFor cls c n p = raw) ∧
      (s.m16 (s.mon c).level ≤ 33 → s.chargeFor cls c n p = (raw * s.m16 (s.mon c).level + 8) / 16))

/-- R54, R55, R56: the listen window doubles with the attempts up to the cap and the one-way spacing does
not; both are stretched by the multiplier of the channel's level, rounded half up, and kept within
1..1,023. -/
def Obligations.WindowFormula : Prop :=
  ∀ (s : State) (e : Entry) (a : Attempt), e.attempt = some a → (a.oneWay = true ∨ 1 ≤ e.attempts) →
    let w := if a.oneWay then min e.cap e.base else min e.cap (e.base * 2 ^ (e.attempts - 1))
    let w' := (w * s.m16 (s.mon e.chan).level + 8) / 16
    s.windowFor e = (if w' < 1 then 1 else if 1023 < w' then 1023 else w')

/-- R79, R80, R67: at the answer of a line's request the checks of the chain are made in order, and the
first that fails gives the reason of a REFUSED receipt; the line skips the declared length and the check
byte, and nothing else changes. -/
def Obligations.AdmissionRefusesALine : Prop :=
  ∀ (s : State) (n : LineNo) (h : Header) (held : Bool) (rest : List Lookup),
    s.op = none → s.pendingRemovals = [] →
    s.lookups = { user := .admission (.line n) h, held := held } :: rest →
    let refused : Reason → State := fun reason =>
      { s.setLine n { s.line n with
          receipt := some (.refused reason 0), refused := min 65535 ((s.line n).refused + 1)
          remaining := h.len + 1, state := .skip, timer := 0 } with
        lookups := rest }
    (s.record h.addr = none → exec .admission s = .next (refused .unknown)) ∧
    (∀ r reason, s.record h.addr = some r →
      (if r.state = .suspended then some Reason.suspended
       else if r.state = .retiring then some .retired
       else if (s.acct r.account).state = .barred then some .barred
       else if 8 ≤ r.live then some .liveLimit
       else if s.liveEntries.length = 256 then some .tableFull
       else if s.freeBlocks.length * 16 < h.len then some .poolFull
       else if (s.acct r.account).balance - (s.chargeFor r.cls r.home h.len h.priority : Int) <
          -((s.acct r.account).cl : Int) then some .noCredit
       else none) = some reason →
      exec .admission s = .next (refused reason))

/-- R82, R83, R66: a line's request that passes every check is admitted: the lowest free slot with its
next generation, the first serial that no live entry of the subscriber holds, the blocks from the top of
the stack with the hold recomputed, the live count and next serial, the charge, the entry in ASSEMBLING,
and the line in TEXT, or in CHECK for a page of no text. -/
def Obligations.AdmissionAdmitsALine : Prop :=
  ∀ (s : State) (n : LineNo) (h : Header) (held : Bool) (rest : List Lookup) (r : Subscriber) (i k : Nat),
    s.op = none → s.pendingRemovals = [] →
    s.lookups = { user := .admission (.line n) h, held := held } :: rest →
    s.record h.addr = some r → r.state = .active → (s.acct r.account).state ≠ .barred → r.live < 8 →
    i < 256 → (s.slot i).entry = none → (∀ j, j < i → (s.slot j).entry ≠ none) →
    h.len ≤ 16 * s.freeBlocks.length →
    let charge := s.chargeFor r.cls r.home h.len h.priority
    let a := s.acct r.account
    a.balance - (charge : Int) ≥ -(a.cl : Int) →
    let v := (r.nextSerial + k) % 64
    let takenBy : Nat → Prop := fun x => ∃ e ∈ s.liveEntries, e.addr = h.addr ∧ e.serial = x
    k < 64 → ¬takenBy v → (∀ j, j < k → takenBy ((r.nextSerial + j) % 64)) →
    let blocks := (h.len + 15) / 16
    let left := s.freeBlocks.drop blocks
    let hold := if left.length < s.lowMark then true else if s.highMark ≤ left.length then false else s.poolHold
    let gen := ((s.slot i).gen + 1) % 256
    let prof : Nat → Nat := fun x => s.setting (0x40 + 16 * r.profile + x)
    ∃ t, exec .admission s = .next t ∧
      t.slot i =
        { gen := gen, last := (s.slot i).last
          entry := some
            { state := .assembling, addr := h.addr, chan := r.home, serial := v, priority := h.priority
              kind := h.kind, len := h.len, blocks := s.freeBlocks.take blocks, account := r.account
              cls := r.cls, maxAttempts := prof 0, t1 := prof 1, t2 := prof 2, base := prof 3, cap := prof 5
              lifetime := prof 7, charge := charge, attempts := 0, deferrals := 0, source := .line n
              accepted := s.time, deadline := min 4294967295 (s.time + prof 7), attempt := none
              cancelPending := false, expirePending := false, wheel := none } } ∧
      (∀ j, j ≠ i → t.slot j = s.slot j) ∧
      t.acct r.account = { a with
        balance := max (-8388608) (min 8388607 (a.balance - (charge : Int)))
        held := min 16777215 (a.held + charge), accepted := min 65535 (a.accepted + 1)
        charged := min 16777215 (a.charged + charge), overrun := false, mark := true } ∧
      (∀ j, j ≠ r.account → t.acct j = s.acct j) ∧
      t = { s.setLine n { s.line n with
              bound := some { slot := i, gen := gen }, remaining := h.len
              state := if h.len = 0 then .check else .text, timer := 0 } with
        slots := t.slots, accounts := t.accounts, lookups := rest, freeBlocks := left, poolHold := hold
        directory := s.directory.map (fun q =>
          if q.addr = h.addr then { q with nextSerial := (v + 1) % 64, live := q.live + 1 } else q)
        port := { s.port with
          causes := if hold && !s.poolHold then s.port.causes ||| 0x04 else s.port.causes } }

/-- R97, R98, R90: how the answer of its request reaches a SUBMIT PAGE frame. A refusal is kept in the
frame, or given as the result where every text byte has arrived. An admission is kept with the text bytes
received so far written into the entry's blocks, or completes the page. -/
def Obligations.AdmissionReachesThePort : Prop :=
  ∀ (s : State) (h : Header) (held : Bool) (rest : List Lookup) (f : Frame),
    s.op = none → s.pendingRemovals = [] →
    s.lookups = { user := .admission .port h, held := held } :: rest →
    s.port.frame = some f → f.outcome = .outstanding →
    let u := { s with lookups := rest }
    (∀ reason, s.verdict h = .refused reason →
      exec .admission s = .next
        (if 5 ≤ f.args.length ∧ f.args.length = 5 + (f.args.getD 4 0).toNat then
          u.setPort (Port.answered { s.port with frame := none }
            [BitVec.ofNat 8 (0x40 + reasonCode reason), 0])
         else u.setFrame (some { f with outcome := .refused reason 0 }))) ∧
    (∀ i r v, s.verdict h = .admitted i r v →
      let tag : Tag := { slot := i, gen := ((s.slot i).gen + 1) % 256 }
      let w := (u.admitPage i .port h r v).setFrame (some { f with outcome := .admitted tag v })
      ∀ x, w.writeTexts (s.freeBlocks.take ((h.len + 15) / 16)) 0 (f.args.drop 5) = some x →
        exec .admission s = .next
          (if 5 ≤ f.args.length ∧ f.args.length = 5 + (f.args.getD 4 0).toNat then
            let y := (x.setFrame none).completeEntry tag
            y.setPort (y.port.answered
              [0x00, BitVec.ofNat 8 i, BitVec.ofNat 8 tag.gen, BitVec.ofNat 8 v])
           else x))

/-- R98, R90: the last text byte of a SUBMIT PAGE frame. For an admitted page it is written at its place,
the launch is asked for, and the result is OK with the tag and serial; for a refused one the result is
40H plus the reason with the peer office; with the request outstanding the byte is kept and the frame
stays open. -/
def Obligations.SubmitPageCompletes : Prop :=
  ∀ (s : State) (f : Frame) (b : Byte) (k : Nat), s.byteReady true true b → s.port.frame = some f →
    f.cmd = .submitPage → f.misq = false → f.args.length = 5 + k →
    (f.args.getD 4 0).toNat = k + 1 →
    (∀ t v e block, f.outcome = .admitted t v → s.entry t = some e → e.blocks[k / 16]? = some block →
      4096 - 512 * s.partition + block < 4608 → (∀ m, (s.line m).bound ≠ some t) →
      exec (.submitPage (.last b)) s = .next
        { s.afterLast [0x00, BitVec.ofNat 8 t.slot, BitVec.ofNat 8 t.gen, BitVec.ofNat 8 v] with
          text := tblInsert s.text (16 * (4096 - 512 * s.partition + block) + k % 16) b
          lookups := s.lookups ++
            [{ user := .launch t, held := s.op.isSome || !s.pendingRemovals.isEmpty }] }) ∧
    (∀ reason peer, f.outcome = .refused reason peer →
      exec (.submitPage (.last b)) s = .next
        (s.afterLast [BitVec.ofNat 8 (0x40 + reasonCode reason), BitVec.ofNat 8 peer])) ∧
    (f.outcome = .outstanding →
      exec (.submitPage (.last b)) s = .next
        { s with port := { s.port.paired with frame := some { f with args := f.args ++ [b] } } })

/-! ## Endings and the page commands -/

/-- R91, R23, R24, R36, R52, R53: an ending gives the blocks back in text order and recomputes the hold,
frees the slot with its kind recorded and its generation kept, and reaches the account with the refund
that its kind gives. It raises no OVERRUN. The account is as the ranges and the overrun rule say. -/
def Obligations.EndingsSettleThePage : Prop :=
  ∀ (s : State) (k : Ending) (t : Tag) (e : Entry), s.entry t = some e → k ≠ .none →
    (s.acct e.account).Ok →
    let u := s.endEntry k t
    let a := s.acct e.account
    let part := e.charge * s.tariffR e.cls / 8
    let refund : Nat := match k with
      | .expired => part
      | .cancelled => if e.attempts = 0 then e.charge else part
      | .aborted => e.charge
      | .delivered | .sentOnly | .none => 0
    let free := s.freeBlocks.length + e.blocks.length
    let hold := if free < s.lowMark then true else if s.highMark ≤ free then false else s.poolHold
    let bal : Int := min 8388607 (a.balance + (refund : Int))
    u.slot t.slot = { gen := (s.slot t.slot).gen, last := k, entry := none } ∧
    (∀ j, j ≠ t.slot → u.slot j = s.slot j) ∧
    u.freeBlocks = e.blocks.reverse ++ s.freeBlocks ∧ u.poolHold = hold ∧
    u.port = { s.port with
      causes := if hold && !s.poolHold then s.port.causes ||| 0x04 else s.port.causes } ∧
    u.acct e.account = { a with
      balance := bal, held := a.held - e.charge, overrun := decide (bal < -(a.cl : Int))
      refunded := min 16777215 (a.refunded + refund), mark := true
      delivered := if k = .delivered then min 65535 (a.delivered + 1) else a.delivered
      sentOnly := if k = .sentOnly then min 65535 (a.sentOnly + 1) else a.sentOnly
      expired := if k = .expired then min 65535 (a.expired + 1) else a.expired
      cancelled := if k = .cancelled then min 65535 (a.cancelled + 1) else a.cancelled
      aborted := if k = .aborted then min 65535 (a.aborted + 1) else a.aborted } ∧
    (∀ j, j ≠ e.account → u.acct j = s.acct j)

/-- R91, R15, R16, R106, R110: an ending takes the entry out of its place, an ON_AIR entry's tag staying
on the outstanding list; drops a launch asked for it; and lowers the live count of its record. A RETIRING
record brought to 0 has its removal begun, or made pending behind the operation in progress. Nothing else
of the state changes but what `EndingsSettleThePage` names. -/
def Obligations.EndingsLeaveTheirPlace : Prop :=
  ∀ (s : State) (k : Ending) (t : Tag) (e : Entry) (r : Subscriber), s.entry t = some e →
    s.record e.addr = some r →
    let u := s.endEntry k t
    let dropped := s.lookups.filter (fun l => !isLaunchOf t l.user)
    let begins := r.state = .retiring ∧ r.live ≤ 1
    u = { u with
      op := if begins ∧ s.op = none then some (.removal e.addr true) else s.op
      pendingRemovals :=
        if begins ∧ s.op ≠ none ∧ e.addr ∉ s.pendingRemovals then s.pendingRemovals ++ [e.addr]
        else s.pendingRemovals
      lookups := if begins ∧ s.op = none then dropped.map (fun l => { l with held := true }) else dropped
      directory := s.directory.map (fun q => if q.addr = e.addr then { q with live := q.live - 1 } else q)
      lines := if e.state = .assembling then (s.unbindLines t).lines else s.lines
      chans := if e.state = .queued then (s.leaveBand t e.chan).chans else s.chans
      wheel := if e.state = .waiting ∨ e.state = .listening then (s.leaveSlot t e).wheel else s.wheel
      visits := if e.state = .waiting ∨ e.state = .listening then (s.leaveSlot t e).visits else s.visits
      partition := s.partition, cursorKey := s.cursorKey, cursorMode := s.cursorMode, markMode := s.markMode
      text := s.text, settings := s.settings, tablePtr := s.tablePtr, staging := s.staging, time := s.time
      head := s.head, ab := s.ab, servicePtr := s.servicePtr, monitorOn := s.monitorOn, mons := s.mons
      settleCursor := s.settleCursor, out := s.out, lateTicks := s.lateTicks, pending := s.pending }

/-- R94, R86, R87: PAGE STATUS reports every field of a live entry, the last ending of an ended one, or
STALE_TAG, and changes nothing. The attempt's figures are absent before the first launch, the wheel slot and
rounds off the wheel; the generation follows, and the place: the source in ASSEMBLING, the band in QUEUED,
the position in the outstanding list in ON_AIR. The layout, the place FFH of an entry on the wheel, and the
earlier position of a tag that the list holds twice are the model's (log entries 13 and 14). R95, R86, R53: CANCEL PAGE
ends a WAITING, QUEUED or LISTENING entry CANCELLED and gives the refund, sets cancel-pending on an
ON_AIR one, gives STATE for an ASSEMBLING one, and ENDED or STALE_TAG for a tag that is not live. -/
def Obligations.PageStatusAndCancel : Prop :=
  (∀ (s : State) (t : Tag), s.codeArrives .pageStatus (pageDesig t) →
     let sl := s.slot t.slot
     (∀ e, sl.entry = some e → sl.gen = t.gen →
       let source : Byte := match e.source with
         | .line n => BitVec.ofNat 8 n.val
         | .port => 4
       let band : Byte := if e.priority = .urgent then 1 else 0
       let place : Byte := match e.state with
         | .assembling => source
         | .queued => band
         | .onAir => BitVec.ofNat 8 ((s.chan e.chan).outstanding.idxOf t)
         | .waiting | .listening => 0xFF
       exec .pageStatus s = .next (s.afterCode
         ([0x00, BitVec.ofNat 8 t.slot, BitVec.ofNat 8 t.gen, pageStateByte e.state] ++ beBytes 3 e.addr
           ++ [if e.chan = .A then 0 else 1, BitVec.ofNat 8 e.serial, band, if e.kind = .text then 1 else 0,
             BitVec.ofNat 8 e.len, BitVec.ofNat 8 e.blocks.length]
           ++ e.blocks.flatMap (fun k => beBytes 2 k) ++ beBytes 2 e.account
           ++ [BitVec.ofNat 8 e.cls, BitVec.ofNat 8 e.maxAttempts, BitVec.ofNat 8 e.t1, BitVec.ofNat 8 e.t2]
           ++ beBytes 2 e.base ++ beBytes 2 e.cap ++ beBytes 2 e.lifetime ++ beBytes 2 e.charge
           ++ [BitVec.ofNat 8 e.attempts, BitVec.ofNat 8 e.deferrals, source]
           ++ beBytes 4 e.accepted ++ beBytes 4 e.deadline
           ++ (match e.attempt with
               | none => [0xFF, 0xFF, 0xFF, 0xFF]
               | some a => beBytes 2 a.mask.toNat ++ [BitVec.ofNat 8 a.tier, if a.oneWay then 1 else 0])
           ++ [if e.cancelPending then 1 else 0, if e.expirePending then 1 else 0]
           ++ (match e.wheel with
               | none => [0xFF, 0xFF]
               | some (w, rounds) => [BitVec.ofNat 8 w, BitVec.ofNat 8 rounds])
           ++ [BitVec.ofNat 8 t.gen, place]))) ∧
     (sl.entry = none → sl.gen = t.gen → sl.last ≠ .none →
       exec .pageStatus s = .next (s.afterCode [0x0A, endingByte sl.last])) ∧
     (sl.entry = none → sl.gen = t.gen → sl.last = .none →
       exec .pageStatus s = .next (s.afterCode [0x09])) ∧
     (sl.gen ≠ t.gen → exec .pageStatus s = .next (s.afterCode [0x09]))) ∧
  (∀ (s : State) (t : Tag), s.codeArrives .cancelPage (pageDesig t) →
     let sl := s.slot t.slot
     (sl.entry = none → sl.gen = t.gen → sl.last ≠ .none →
       exec .cancelPage s = .next (s.afterCode [0x0A, endingByte sl.last])) ∧
     ((sl.gen ≠ t.gen ∨ (sl.entry = none ∧ sl.last = .none)) →
       exec .cancelPage s = .next (s.afterCode [0x09])) ∧
     (∀ e, s.entry t = some e →
       (e.state = .assembling → exec .cancelPage s = .next (s.afterCode [0x05])) ∧
       (e.state = .onAir → exec .cancelPage s = .next
         ((s.afterCode [0x00, 0, 0, 0]).setSlot t.slot
           { sl with entry := some { e with cancelPending := true } })) ∧
       (e.state = .waiting ∨ e.state = .queued ∨ e.state = .listening →
         let refund := if e.attempts = 0 then e.charge else e.charge * s.tariffR e.cls / 8
         let u := (s.setPort { s.port.paired with latch := noDesig }).endEntry .cancelled t
         exec .cancelPage s = .next
           (u.setPort (u.port.answered ([0x00, 1] ++ beBytes 2 refund)))))) ∧
  ([.assembling, .waiting, .queued, .onAir, .listening] : List PageState).map pageStateByte =
    [0, 1, 2, 3, 4] ∧
  ([.none, .delivered, .sentOnly, .expired, .cancelled, .aborted] : List Ending).map endingByte =
    [0, 1, 2, 3, 4, 5]

/-- R100, R101, R77, R16: PURGE TRAFFIC sets busy. Each slot is taken in turn: a free one is passed over;
an ASSEMBLING entry ends ABORTED and its line skips what it still expected and the check byte; another
entry ends CANCELLED. Past slot 255 the purge completes with DONE, and the oldest pending removal begins
or busy is cleared. One slot for each step is the model's choice (log entry 17). -/
def Obligations.PurgeTakesTheSlots : Prop :=
  (∀ s : State, s.codeArrives .purgeTraffic noDesig →
    exec .purgeTraffic s = .next
      { s.afterCode [0x00] with
        op := some (.purge 0), lookups := s.lookups.map (fun l => { l with held := true }) }) ∧
  (∀ (s : State) (i : Nat), s.op = some (.purge i) → i < 256 →
    let t : Tag := { slot := i, gen := (s.slot i).gen }
    ((s.slot i).entry = none → exec .purgeSlot s = .next { s with op := some (.purge (i + 1)) }) ∧
    (∀ e, (s.slot i).entry = some e → e.state ≠ .assembling →
      exec .purgeSlot s = .next { s.endEntry .cancelled t with op := some (.purge (i + 1)) }) ∧
    (∀ e n, (s.slot i).entry = some e → e.state = .assembling → (s.line n).bound = some t →
      (∀ m, m ≠ n → (s.line m).bound ≠ some t) →
      exec .purgeSlot s = .next
        { (s.endEntry .aborted t).setLine n { s.line n with
            bound := none, remaining := (s.line n).remaining + 1, timer := 0, state := .skip } with
          op := some (.purge (i + 1)) }) ∧
    (∀ e, (s.slot i).entry = some e → e.state = .assembling → (∀ m, (s.line m).bound ≠ some t) →
      exec .purgeSlot s = .next { s.endEntry .aborted t with op := some (.purge (i + 1)) })) ∧
  (∀ (s : State) (i : Nat), s.op = some (.purge i) → 256 ≤ i →
    exec .purgeComplete s = .next
      { s with
        port := { s.port with causes := s.port.causes ||| 0x40 }
        op := s.pendingRemovals.head?.map (fun a => .removal a true)
        pendingRemovals := s.pendingRemovals.tail })

/-! ## The clock and the wheel -/

/-- R102, R107, R71, R148: a counted tick raises the office time, which stops at its last value, advances
the head and begins the visit of the new slot's list as it stands. The lines' idle timers and the
channels' samples take the tick in the same step, but for those that the front of lateTicks names, which
take it at a row of their own; what is still due at the next tick is taken first. A tick while the monitor
is off makes no sample, then or later. The order within a
step, lines 0 to 3 and then channels A and B, and lateTicks are the model's (log entry 5). Where no timer
comes to its timeout, the timers, the monitor records and the notice causes are all that changes besides.
R103: SET CLOCK writes the office time and nothing else; READ CLOCK gives the office time, the head and
the numbers of WAITING and LISTENING entries. -/
def Obligations.TicksAndTheClock : Prop :=
  (∀ s : State, s.op ≠ some .autoclear → (∀ n, (s.line n).tickDue = false) →
     (∀ c, (s.mon c).sampleDue = false) →
     let head := (s.head + 1) % 64
     let late := s.lateTicks.headD []
     let clocked : State := { s with
       time := min 4294967295 (s.time + 1), head := head, lateTicks := s.lateTicks.tail
       visits := if s.wheelList head = [] then s.visits
         else s.visits ++ [{ slot := head, todo := s.wheelList head }] }
     let takes : State → TickPart → State := fun u p =>
       match p with
       | .line n => if p ∈ late then u.setLine n { u.line n with tickDue := true } else u.tickLine n
       | .channel c =>
         if p ∈ late ∧ u.monitorOn = true then u.setMon c { u.mon c with sampleDue := true } else u.sample c
     exec .tick s = .next
       (([.line 0, .line 1, .line 2, .line 3, .channel .A, .channel .B] : List TickPart).foldl takes clocked) ∧
     ((∀ n, TickPart.line n ∉ late → (s.line n).state.counts = true →
         min 60 ((s.line n).timer + 1) < s.idleLimit n) →
       ∃ t, exec .tick s = .next t ∧
         (∀ n, let l := s.line n
           t.line n =
             if TickPart.line n ∈ late then { l with tickDue := true }
             else if l.state = .header ∨ l.state = .text ∨ l.state = .check ∨ l.state = .skip then
               { l with timer := min 60 (l.timer + 1) }
             else l) ∧
         (∀ c, TickPart.channel c ∈ late → s.monitorOn = true →
           t.mon c = { s.mon c with sampleDue := true }) ∧
         (∀ c, s.monitorOn = false → t.mon c = s.mon c) ∧
         t = { clocked with
           lines := t.lines, mons := t.mons, port := { s.port with causes := t.port.causes } })) ∧
  (∀ s : State, s.op ≠ some .autoclear →
     let after : State → Instr → State := fun u i =>
       match exec i u with
       | .next v => v
       | _ => u
     exec .tick s = exec .tick
       (([.idleTimeout 0, .idleTimeout 1, .idleTimeout 2, .idleTimeout 3, .levelMove .A, .levelMove .B] :
         List Instr).foldl after s)) ∧
  (∀ (s : State),
     (∀ b0 b1 b2 b3 : Byte, s.lastArrives .setClock [b0, b1, b2] b3 noDesig → s.op = none →
       exec (.setClock (.last b3)) s = .next
         { s.afterLast [0x00] with
           time := 16777216 * b0.toNat + 65536 * b1.toNat + 256 * b2.toNat + b3.toNat }) ∧
     (s.codeArrives .readClock noDesig →
       exec .readClock s = .next (s.afterCode
         (0x00 :: beBytes 4 s.time ++ [byteOf s.head]
           ++ beBytes 2 (s.liveEntries.countP (fun e => e.state = .waiting))
           ++ beBytes 2 (s.liveEntries.countP (fun e => e.state = .listening))))))

/-- R148, R149, R147: the sample of a channel. The activity moves an eighth of the way to the weight of
the queue, the residency rises, and the up and down tests count towards Hup and Hdown. A count that
reaches its hysteresis moves the channel in the same event to the next higher or the next lower enabled
level: the counts and the residency become 0, the new activity stays, and LEVEL is raised. The down test
moves nothing where the up test did. While the monitor is disabled there is no sample. LEVEL_MOVE is the
sample of a channel that takes a tick after the Office Clock (the model's choice, log entry 5). -/
def Obligations.SamplesAndMoves : Prop :=
  (∀ (s : State) (c : Chan),
     let m := s.mon c
     let a := (7 * m.activity + min 4095 (64 * ((s.chan c).urgent.length + (s.chan c).normal.length)) + 4) / 8
     let upPasses : Bool := ([1, 2, 3] : List Nat).any (fun l => decide (m.level < l) && s.levelEnabled l) &&
       decide (s.setting (0x160 + 2 * m.level) ≤ a)
     let downPasses : Bool := decide (1 ≤ m.level) && decide (a < s.setting (0x164 + 2 * m.level))
     let up := if upPasses then min 15 (m.up + 1) else 0
     let down := if downPasses then min 15 (m.down + 1) else 0
     let rises := upPasses = true ∧ s.setting 0x16C ≤ up
     let falls := ¬rises ∧ downPasses = true ∧ s.setting 0x16D ≤ down
     let moved : Nat → State := fun l =>
       { s.setMon c { m with activity := a, level := l, up := 0, down := 0, residency := 0 } with
         port := { s.port with causes := s.port.causes ||| 0x01 } }
     (s.monitorOn = false → s.sample c = s) ∧
     (s.monitorOn = true →
       (∀ l, rises → m.level < l → l ≤ 3 → s.levelEnabled l = true →
         (∀ k, m.level < k → k < l → s.levelEnabled k = false) → s.sample c = moved l) ∧
       (∀ l, falls → l < m.level → m.level ≤ 3 → s.levelEnabled l = true →
         (∀ k, l < k → k < m.level → s.levelEnabled k = false) → s.sample c = moved l) ∧
       (¬rises → ¬falls → s.sample c = s.setMon c
         { m with activity := a, up := up, down := down, residency := min 65535 (m.residency + 1) }))) ∧
  (∀ (s : State) (c : Chan),
     ((s.mon c).sampleDue = true →
       exec (.levelMove c) s = .next ((s.setMon c { s.mon c with sampleDue := false }).sample c)) ∧
     ((s.mon c).sampleDue = false → exec (.levelMove c) s = .next s))

/-- R105, R106: to schedule an entry `d` seconds ahead, `d` being 1 or more, `d` becomes 1 where less than 1 second is left
before the deadline, and is limited to the time left otherwise; the tag goes to the tail of slot (head +
d) mod 64, with (d - 1) div 64 rounds. An entry that stands on a slot leaves it first, and the visit of
that slot does not find it any more; every other tag keeps its place. -/
def Obligations.SchedulingPlacesTheEntry : Prop :=
  ∀ (s : State) (t : Tag) (e : Entry) (st : PageState) (d : Nat), 1 ≤ d →
    let d' := if e.deadline < s.time + 1 then 1 else if e.deadline - s.time < d then e.deadline - s.time else d
    let w := (s.head + d') % 64
    let u := s.schedule t e st d
    let left : Nat → List Tag := fun x =>
      match e.wheel with
      | some (old, _) => if x = old then (s.wheelList x).erase t else s.wheelList x
      | none => s.wheelList x
    u.wheelList w = left w ++ [t] ∧ (∀ x, x ≠ w → u.wheelList x = left x) ∧
    u.slot t.slot =
      { s.slot t.slot with entry := some { e with state := st, wheel := some (w, (d' - 1) / 64) } } ∧
    (∀ j, j ≠ t.slot → u.slot j = s.slot j) ∧
    u.visits =
      (match e.wheel with
      | some (old, _) =>
        (s.visits.map (fun v => if v.slot = old then { v with todo := v.todo.erase t } else v)).filter
          (fun v => decide (v.todo ≠ []))
      | none => s.visits) ∧
    u = { s with wheel := u.wheel, slots := u.slots, visits := u.visits }

/-- R108, R107, R116: the visit of a slot takes the tags of its list in order. Before the deadline,
rounds above 0 fall by 1, a due WAITING entry's launch is asked for, and an entry whose launch is asked
for is passed over (WHEEL_VISIT); a LISTENING entry at its window's end has its launch asked for, or at
max attempts ends EXPIRED (WINDOW_END). At or past the deadline the entry ends EXPIRED
(DEADLINE_EXPIRED). -/
def Obligations.VisitsExamineTheEntry : Prop :=
  ∀ (s : State) (w : Nat) (t : Tag) (more : List Tag) (e : Entry) (w' rounds : Nat)
    (before after : List Visit),
    s.visits = before ++ { slot := w, todo := t :: more } :: after → (∀ v ∈ before, v.slot ≠ w) →
    s.entry t = some e → e.wheel = some (w', rounds) →
    let u : State := { s with
      visits := before ++ (if more = [] then after else { slot := w, todo := more } :: after) }
    let asked : State := { u with
      lookups := s.lookups ++
        [{ user := .launch t, held := s.op.isSome || !s.pendingRemovals.isEmpty }] }
    (e.deadline ≤ s.time → exec (.deadlineExpired w) s = .next (u.endEntry .expired t)) ∧
    (s.time < e.deadline → 0 < rounds → exec (.wheelVisit w) s = .next
      (u.setSlot t.slot { s.slot t.slot with entry := some { e with wheel := some (w', rounds - 1) } })) ∧
    (s.time < e.deadline → rounds = 0 → s.launchAsked t = true →
      exec (.wheelVisit w) s = .next u) ∧
    (s.time < e.deadline → rounds = 0 → s.launchAsked t = false → e.state = .waiting →
      exec (.wheelVisit w) s = .next asked) ∧
    (s.time < e.deadline → rounds = 0 → s.launchAsked t = false → e.state = .listening →
      (e.attempts = e.maxAttempts → exec (.windowEnd w) s = .next (u.endEntry .expired t)) ∧
      (e.attempts ≠ e.maxAttempts → exec (.windowEnd w) s = .next asked))

/-- R110 to R115: at the answer of its lookup a launch chooses the tier of attempt number attempts + 1
and the zone mask, and places the entry at the tail of its band; with the channel not OPEN or its queue
at 64, the entry is scheduled WAITING one second ahead and a deferral is counted. -/
def Obligations.LaunchesPlaceOrDefer : Prop :=
  ∀ (s : State) (t : Tag) (held : Bool) (rest : List Lookup) (e : Entry) (r : Subscriber),
    s.op = none → s.pendingRemovals = [] → s.lookups = { user := .launch t, held := held } :: rest →
    s.entry t = some e → s.record e.addr = some r →
    let u := { s with lookups := rest }
    let ch := s.chan e.chan
    let room := ch.state = .opened ∧ ch.urgent.length + ch.normal.length < 64
    let first := if r.oneWay = true ∨ e.attempts + 1 ≤ e.t1 then 1
      else if e.attempts + 1 ≤ e.t2 then 2 else 3
    let tier := if first = 3 ∧ (s.mon e.chan).level = 3 then 2 else first
    let own : ZoneMask := 1#16 <<< r.zone
    let mask : ZoneMask :=
      if tier = 1 then own
      else if tier = 2 then own ||| s.neighbourMask e.chan r.zone
      else if s.wideMask e.chan = 0 then own else s.wideMask e.chan
    (¬room → exec .launch s = .next
      (u.schedule t { e with deferrals := min 255 (e.deferrals + 1) } .waiting 1)) ∧
    (room → ∃ x, exec .launch s = .next x ∧
      x.slot t.slot = { s.slot t.slot with entry := some { e with
        state := .queued, attempt := some { mask := mask, tier := tier, oneWay := r.oneWay }
        wheel := none } } ∧
      (∀ j, j ≠ t.slot → x.slot j = s.slot j) ∧
      x = { u with
        slots := x.slots, wheel := (s.leaveSlot t e).wheel, visits := (s.leaveSlot t e).visits
        lines := (s.unbindLines t).lines
        chans := s.chans.put e.chan
          (match e.priority with
          | .urgent => { ch with urgent := ch.urgent ++ [t] }
          | .normal => { ch with normal := ch.normal ++ [t] }) })

/-! ## Air channels -/

/-- R125, R127: before any answer a pull sets expire-pending on each listed entry that is live and ON_AIR
on the channel with its deadline reached, and on no other; a flag already set stays set. That an entry of
the other channel is left alone is the model's choice (log entry 30). R125, R126, R170: the answers to a
pull that serves no page: STALLED from a CLOSED channel, WINDOW with four outstanding tags, and with an
empty queue IDLE, or DRAINED from a DRAINING channel, which closes with its drained flag set and DRAINED
raised. A queue whose entries are all past their deadline is emptied by the pull, each entry ending
EXPIRED, and the answer is then IDLE or DRAINED in the same way. A pull that meets the answer before it
still being sent is discarded (log entry 10). -/
def Obligations.PullsWithoutAPage : Prop :=
  (∀ (s : State) (c : Chan),
     let u := s.markOutstanding c
     (∀ t e, s.entry t = some e → u.entry t = some { e with
       expirePending := e.expirePending ||
         decide (t ∈ (s.chan c).outstanding ∧ e.state = .onAir ∧ e.chan = c ∧ e.deadline ≤ s.time) }) ∧
     (∀ i, (u.slot i).gen = (s.slot i).gen ∧ (u.slot i).last = (s.slot i).last ∧
       ((s.slot i).entry = none → (u.slot i).entry = none)) ∧
     u = { s with slots := u.slots }) ∧
  (∀ (s : State) (c : Chan), s.op ≠ some .autoclear →
     let u := s.markOutstanding c
     let ch := s.chan c
     exec (.pull c true) s = .next s ∧
     (ch.state = .closed → exec (.pull c false) s = .next (u.setEnc c [0x01])) ∧
     (ch.state ≠ .closed → ch.outstanding.length = 4 →
       exec (.pull c false) s = .next (u.setEnc c [0x02])) ∧
     (ch.outstanding.length < 4 → ch.urgent = [] → ch.normal = [] →
       (ch.state = .opened → exec (.pull c false) s = .next (u.setEnc c [0x03])) ∧
       (ch.state = .draining → exec (.pull c false) s = .next
         { (u.setChan c { ch with state := .closed, drained := true }).setEnc c [0x04] with
           port := { s.port with causes := s.port.causes ||| 0x10 } }))) ∧
  (∀ (s : State) (c : Chan), s.op ≠ some .autoclear →
     let u := s.markOutstanding c
     let ch := s.chan c
     let queue := ch.urgent ++ ch.normal
     let x := queue.foldl (fun v d => (v.endEntry .expired d).leaveBand d c) u
     ch.outstanding.length < 4 → queue.Nodup →
     (∀ d ∈ queue, ∃ f, s.entry d = some f ∧ f.state = .queued ∧ f.deadline ≤ s.time) →
     (x.chan c).urgent = [] ∧ (x.chan c).normal = [] ∧
     (ch.state = .opened → exec (.pull c false) s = .next (x.setEnc c [0x03])) ∧
     (ch.state = .draining → exec (.pull c false) s = .next
       { (x.setChan c { x.chan c with state := .closed, drained := true }).setEnc c [0x04] with
         port := { x.port with causes := x.port.causes ||| 0x10 } }))

/-- R125, R124, R170: a pull of a channel that is not CLOSED, with fewer than four outstanding tags, ends
EXPIRED each entry at the head of the queue, URGENT band first, whose deadline is reached, and serves the
first whose deadline is not: its descriptor and text go to the encoder, it leaves its band, goes ON_AIR,
and its tag joins the outstanding list. -/
def Obligations.PullsServeAPage : Prop :=
  ∀ (s : State) (c : Chan) (dead : List Tag) (t : Tag) (more : List Tag) (e : Entry) (a : Attempt)
    (cs : List Byte),
    s.op ≠ some .autoclear →
    let u := s.markOutstanding c
    let x := dead.foldl (fun v d => (v.endEntry .expired d).leaveBand d c) u
    (s.chan c).state ≠ .closed → (s.chan c).outstanding.length < 4 →
    (s.chan c).urgent ++ (s.chan c).normal = dead ++ t :: more →
    ((s.chan c).urgent ++ (s.chan c).normal).Nodup →
    (∀ d ∈ dead, ∃ f, s.entry d = some f ∧ f.state = .queued ∧ f.deadline ≤ s.time) →
    s.entry t = some e → e.state = .queued → s.time < e.deadline → e.attempt = some a →
    x.readTexts e.blocks e.len = some cs →
    exec (.pull c false) s = .next
      (((x.setChan c { x.chan c with
            urgent := (x.chan c).urgent.erase t, normal := (x.chan c).normal.erase t
            outstanding := (s.chan c).outstanding ++ [t] }).setSlot t.slot
          { s.slot t.slot with entry := some { e with state := .onAir } }).setEnc c
        ([0x00, BitVec.ofNat 8 t.slot, BitVec.ofNat 8 t.gen] ++ beBytes 3 e.addr
          ++ [BitVec.ofNat 8 e.serial, kindByte e.kind] ++ beBytes 2 a.mask.toNat
          ++ [BitVec.ofNat 8 e.len] ++ cs))

/-- R128, R49, R51, R36, R54 to R56: a SENT that names a listed, live, ON_AIR entry of its channel
removes the tag, counts the attempt, and from the second attempt takes the surcharge, whatever the
balance. The entry then ends CANCELLED, EXPIRED or SENT_ONLY by the first case that holds, or is
scheduled LISTENING for its window. -/
def Obligations.SentReportsAreCounted : Prop :=
  ∀ (s : State) (c : Chan) (b g : Byte) (e : Entry) (a : Attempt), s.op ≠ some .autoclear →
    let t : Tag := { slot := b.toNat, gen := g.toNat }
    t ∈ (s.chan c).outstanding → s.entry t = some e → e.state = .onAir → e.chan = c →
    e.attempt = some a → (s.acct e.account).Ok →
    let k := e.attempts + 1
    let acc := s.acct e.account
    let factor := if a.tier = 1 then 1 else if a.tier = 2 then 2 else 4
    let sur := if 2 ≤ k then (s.tariffS e.cls * factor * s.m16 (s.mon c).level + 8) / 16 else 0
    let bal : Int := max (-8388608) (acc.balance - (sur : Int))
    let e' := { e with attempts := k }
    ∃ u : State,
      u.slot t.slot = { s.slot t.slot with entry := some e' } ∧
      (∀ j, j ≠ t.slot → u.slot j = s.slot j) ∧
      u.acct e.account = { acc with
        balance := bal, attempts := min 16777215 (acc.attempts + 1)
        charged := min 16777215 (acc.charged + sur)
        overrun := decide (bal < -(acc.cl : Int)), mark := true } ∧
      (∀ j, j ≠ e.account → u.acct j = s.acct j) ∧
      u = { s with
        slots := u.slots, accounts := u.accounts
        chans := s.chans.put c
          { s.chan c with outstanding := (s.chan c).outstanding.erase t }
        port := { s.port with
          causes := if bal < -(acc.cl : Int) ∧ acc.overrun = false then s.port.causes ||| 0x02
            else s.port.causes } } ∧
      exec (.sent c b g) s = .next
        (if e.cancelPending = true then u.endEntry .cancelled t
         else if e.expirePending = true ∨ e.deadline ≤ s.time then u.endEntry .expired t
         else if a.oneWay = true ∧ k = e.maxAttempts then u.endEntry .sentOnly t
         else u.schedule t e' .listening (u.windowFor e'))

/-- R129: every FAILED raises AIR_FAULT. One that names a listed, live, ON_AIR entry of its channel
removes the tag, counts nothing, and the entry ends CANCELLED or EXPIRED by its pending flags and its
deadline, or is scheduled WAITING one second ahead. R130, R129, R170: a report whose tag is not listed,
or names no live ON_AIR entry of the channel, is counted stray and its tag leaves the list; a stray
FAILED raises AIR_FAULT; a report of another kind is counted stray and changes nothing else. -/
def Obligations.FailedAndStrayReports : Prop :=
  (∀ (s : State) (c : Chan) (b g : Byte) (e : Entry), s.op ≠ some .autoclear →
     let t : Tag := { slot := b.toNat, gen := g.toNat }
     let u := { s.setChan c { s.chan c with outstanding := (s.chan c).outstanding.erase t } with
       port := { s.port with causes := s.port.causes ||| 0x20 } }
     t ∈ (s.chan c).outstanding → s.entry t = some e → e.state = .onAir → e.chan = c →
     exec (.failed c b g) s = .next
       (if e.cancelPending = true then u.endEntry .cancelled t
        else if e.expirePending = true ∨ e.deadline ≤ s.time then u.endEntry .expired t
        else u.schedule t e .waiting 1)) ∧
  (∀ (s : State) (c : Chan) (b g : Byte), s.op ≠ some .autoclear →
     let t : Tag := { slot := b.toNat, gen := g.toNat }
     let ch := s.chan c
     let u := s.setChan c { ch with
       outstanding := ch.outstanding.erase t, stray := min 65535 (ch.stray + 1) }
     (∀ kind : Byte, kind ≠ 0x01 → kind ≠ 0x02 →
       exec (.unknownReportKind c kind b g) s = .next
         (s.setChan c { ch with stray := min 65535 (ch.stray + 1) })) ∧
     ((t ∈ ch.outstanding → ∀ e, s.entry t = some e → e.state ≠ .onAir ∨ e.chan ≠ c) →
       exec (.sent c b g) s = .next u ∧
       exec (.failed c b g) s = .next
         { u with port := { s.port with causes := s.port.causes ||| 0x20 } }))

/-- R132, R133: the channel commands, each on the channel of its argument, RANGE above B. OPEN and DRAIN
set the state and clear the drained flag, DRAIN giving STATE on a CLOSED channel; STATUS reports the
record and CLEAR sets the stray counter to 0. The bytes of STATUS are those of log entry 14, and the
order of the two bands' counts is the model's choice (log entry 29). R132, R105: CHANNEL CLOSE closes the
channel and returns its queued entries to the wheel in band order, URGENT first: each becomes WAITING on
the slot after the head, with rounds 0 and its other fields as they were; the outstanding list stays. The
queued entries are live and on no wheel slot. -/
def Obligations.ChannelCommands : Prop :=
  (∀ (s : State) (b : Byte), s.op = none →
     (∀ c i, lastRow c b = some i →
       c ∈ ([.channelOpen, .channelDrain, .channelClose, .channelStatus, .channelClear] : List Cmd) →
       s.lastArrives c [] b noDesig → 1 < b.toNat → exec i s = .next (s.afterLast [0x07])) ∧
     (∀ c : Chan, b = (match c with | .A => 0 | .B => 1) →
       let ch := s.chan c
       (s.lastArrives .channelOpen [] b noDesig → exec (.channelOpen (.last b)) s = .next
         ((s.afterLast [0x00]).setChan c { ch with state := .opened, drained := false })) ∧
       (s.lastArrives .channelDrain [] b noDesig → exec (.channelDrain (.last b)) s = .next
         (if ch.state = .closed then s.afterLast [0x05]
          else (s.afterLast [0x00]).setChan c { ch with state := .draining, drained := false })) ∧
       (s.lastArrives .channelStatus [] b noDesig → exec (.channelStatus (.last b)) s = .next
         (s.afterLast ([0x00, chanStateByte ch.state, flagByte ch.drained,
             BitVec.ofNat 8 ch.urgent.length, BitVec.ofNat 8 ch.normal.length,
             BitVec.ofNat 8 ch.outstanding.length]
           ++ ch.outstanding.flatMap (fun t => [BitVec.ofNat 8 t.slot, BitVec.ofNat 8 t.gen])
           ++ beBytes 2 ch.stray))) ∧
       (s.lastArrives .channelClear [] b noDesig → exec (.channelClear (.last b)) s = .next
         ((s.afterLast [0x00]).setChan c { ch with stray := 0 })))) ∧
  (∀ (s : State) (c : Chan) (b : Byte), s.op = none → b = (match c with | .A => 0 | .B => 1) →
     s.lastArrives .channelClose [] b noDesig →
     let ch := s.chan c
     let queue := ch.urgent ++ ch.normal
     let w := (s.head + 1) % 64
     queue.Nodup → (∀ t ∈ queue, ∃ e, s.entry t = some e ∧ e.wheel = none) →
     ∃ u, exec (.channelClose (.last b)) s = .next u ∧
       u.chan c = { ch with state := .closed, urgent := [], normal := [], drained := false } ∧
       (∀ k, k ≠ c → u.chan k = s.chan k) ∧
       u.wheelList w = s.wheelList w ++ queue ∧ (∀ x, x ≠ w → u.wheelList x = s.wheelList x) ∧
       (∀ t e, s.entry t = some e →
         u.entry t = some
           (if t ∈ queue then { e with state := .waiting, wheel := some (w, 0) } else e)) ∧
       (∀ i, (u.slot i).gen = (s.slot i).gen ∧ (u.slot i).last = (s.slot i).last ∧
         ((s.slot i).entry = none → (u.slot i).entry = none)) ∧
       u = { s.afterLast [0x00] with chans := u.chans, wheel := u.wheel, slots := u.slots })

/-! ## Answer-backs -/

/-- R135, R171: the bytes of a frame, the first marked. The fifth makes the frame arrive: it is written
into an empty slot, or dropped and counted at a full one. A marked byte begins a frame, anew where one
was begun; an unmarked byte with none begun is ignored. R136, R137: with no service in progress, the
first full slot after the one that the pointer names, counting upward and wrapping from 3 to 0, is
chosen; the pointer names it, and its lookup is asked for, held while an operation that takes time is in
progress or a removal is pending. While a service is in progress, or with no slot full, none begins. That
the service of a frame that finds the unit idle begins at this step is the table's (log entry 34). -/
def Obligations.AnswerBackFramesAndService : Prop :=
  (∀ (s : State) (n : LineNo) (b : Byte), s.op ≠ some .autoclear →
     let a := s.abSlot n
     (a.rx = [] →
       exec (.answerBackFrame n true b) s = .next (s.setAbSlot n { a with rx := [b] }) ∧
       exec (.answerBackFrame n false b) s = .next s) ∧
     (a.rx ≠ [] →
       exec (.markedByteRestart n b) s = .next (s.setAbSlot n { a with rx := [b] })) ∧
     (a.rx ≠ [] → a.rx.length < 4 →
       exec (.answerBackFrame n false b) s = .next (s.setAbSlot n { a with rx := a.rx ++ [b] })) ∧
     (∀ k b1 b2 b3 : Byte, a.rx = [k, b1, b2, b3] →
       (a.frame = none → exec (.answerBackFrame n false b) s = .next
         (s.setAbSlot n { a with
           rx := []
           frame := some
             { kind := k, addr := 65536 * (b1.toNat % 64) + 256 * b2.toNat + b3.toNat
               serial := b.toNat % 64 } })) ∧
       (a.frame ≠ none → exec (.answerBackFrame n false b) s = .next
         (s.setAbSlot n { a with rx := [], dropped := min 65535 (a.dropped + 1) })))) ∧
  (∀ (s : State) (n : LineNo) (k : Nat),
     (∀ l ∈ s.lookups, ∀ m, l.user ≠ .service m) → k < 4 → n.val = (s.servicePtr.val + 1 + k) % 4 →
     (s.abSlot n).frame ≠ none →
     (∀ (j : Nat) (m : LineNo), j < k → m.val = (s.servicePtr.val + 1 + j) % 4 → (s.abSlot m).frame = none) →
     exec .answerBackService s = .next
       { s with
         servicePtr := n
         lookups := s.lookups ++
           [{ user := .service n, held := s.op.isSome || !s.pendingRemovals.isEmpty }] }) ∧
  (∀ s : State, ((∃ l ∈ s.lookups, ∃ m, l.user = .service m) ∨ (∀ m, (s.abSlot m).frame = none)) →
     exec .answerBackService s = .next s)

/-- R137 to R139, R142: the service of a REGISTER frame. With a record found, the current zone becomes
the receiver's and last heard the office time, the mark is set in mark mode SET, and a receiver of the
other channel is counted; with none found, or a frame of an unknown kind, the frame is counted stray and
makes no update. R140 to R142, R137: the service of a RECEIVED or DECLINED frame: the same roaming update,
none where no record is found, and then the match. It matches a live entry of its address and serial that
is ON_AIR, or LISTENING, WAITING or QUEUED with an attempt made. A matched RECEIVED ends the entry
DELIVERED. A matched DECLINED ends a LISTENING entry EXPIRED at max attempts or schedules it LISTENING
afresh, its launch dropped, and leaves another entry as it was. A frame that matches nothing is counted
stray. The slot empties. R136: the service ends so, and in the same step the unit begins the next one at the
first slot, counted from the pointer, that is full then, or begins none where no slot is full. -/
def Obligations.ServedFramesReachTheirPage : Prop :=
  let ends : State → State → Prop := fun s v =>
    ((∀ m, (v.abSlot m).frame = none) → exec .serviceAnswer s = .next v) ∧
    (∀ (m : LineNo) (k : Nat), k < 4 → m.val = (v.servicePtr.val + 1 + k) % 4 → (v.abSlot m).frame ≠ none →
      (∀ (j : Nat) (l : LineNo), j < k → l.val = (v.servicePtr.val + 1 + j) % 4 → (v.abSlot l).frame = none) →
      exec .serviceAnswer s = .next
        { v with
          servicePtr := m
          lookups := v.lookups ++
            [{ user := .service m, held := v.op.isSome || !v.pendingRemovals.isEmpty }] })
  (∀ (s : State) (n : LineNo) (held : Bool) (rest : List Lookup) (f : AbFrame),
     s.op = none → s.pendingRemovals = [] → s.lookups = { user := .service n, held := held } :: rest →
     (s.abSlot n).frame = some f →
     let a := s.abSlot n
     let stray : State := { s.setAbSlot n { a with frame := none, stray := min 65535 (a.stray + 1) } with
       lookups := rest }
     let other : Subscriber → Bool := fun r =>
       decide ((if s.setting (0x150 + 2 * n.val) = 0 then Chan.A else .B) ≠ r.home)
     (f.kind = 0x03 → ∀ r, s.record f.addr = some r → ends s
       { s.setAbSlot n { a with
           frame := none, cross := if other r then min 65535 (a.cross + 1) else a.cross } with
         lookups := rest
         directory := s.directory.map (fun q =>
           if q.addr = f.addr then
             { q with
               zone := s.setting (0x151 + 2 * n.val), lastHeard := some s.time
               mark := q.mark || decide (s.markMode = .set) }
           else q) }) ∧
     (f.kind = 0x03 → s.record f.addr = none → ends s stray) ∧
     (f.kind ≠ 0x01 → f.kind ≠ 0x02 → f.kind ≠ 0x03 → ends s stray)) ∧
  (∀ (s : State) (n : LineNo) (held : Bool) (rest : List Lookup) (f : AbFrame) (i : Nat) (e : Entry),
     s.op = none → s.pendingRemovals = [] → s.lookups = { user := .service n, held := held } :: rest →
     (s.abSlot n).frame = some f → f.kind = 0x01 ∨ f.kind = 0x02 →
     let a := s.abSlot n
     let u : State := match s.record f.addr with
       | none => { s with lookups := rest }
       | some r =>
         { s.setAbSlot n { a with
             cross := if (if s.setting (0x150 + 2 * n.val) = 0 then Chan.A else .B) ≠ r.home then
               min 65535 (a.cross + 1) else a.cross } with
           lookups := rest
           directory := s.directory.map (fun q =>
             if q.addr = f.addr then
               { q with
                 zone := s.setting (0x151 + 2 * n.val), lastHeard := some s.time
                 mark := q.mark || decide (s.markMode = .set) }
             else q) }
     let answers : Entry → Prop := fun x => x.addr = f.addr ∧ x.serial = f.serial ∧
       (x.state = .onAir ∨
         (1 ≤ x.attempts ∧ (x.state = .listening ∨ x.state = .waiting ∨ x.state = .queued)))
     let t : Tag := { slot := i, gen := (s.slot i).gen }
     let emptied : State → State := fun v => v.setAbSlot n { v.abSlot n with frame := none }
     ((∀ x ∈ s.liveEntries, ¬answers x) → ends s
       (emptied (u.setAbSlot n
         { u.abSlot n with stray := min 65535 ((u.abSlot n).stray + 1) }))) ∧
     (i < 256 → (s.slot i).entry = some e → answers e →
       (∀ j x, j < 256 → (s.slot j).entry = some x → answers x → j = i) →
       (f.kind = 0x01 → ends s (emptied (u.endEntry .delivered t))) ∧
       (f.kind = 0x02 → e.state = .listening → e.attempts = e.maxAttempts →
         ends s (emptied (u.endEntry .expired t))) ∧
       (f.kind = 0x02 → e.state = .listening → e.attempts ≠ e.maxAttempts →
         ends s (emptied
           (({ u with lookups := rest.filter (fun l => !isLaunchOf t l.user) } : State).schedule t e
             .listening (s.windowFor e)))) ∧
       (f.kind = 0x02 → e.state ≠ .listening → ends s (emptied u))))

/-- R144: the answer-back commands, each on the slot of its first argument, RANGE above 3. STATUS reports
the slot, its serve state (none, SELECTED, or HELD where its lookup has been held), its receiver zone
entry, its counters and the pointer, and changes nothing; CLEAR sets the counters of its mask to 0. R151,
R152, R153, R147: MONITOR ENABLE sets the flag on, clears both filters and takes each channel to the
effective boot level; MONITOR DISABLE, where the flag is on, sets it off and takes each channel there, its
figures staying unless its level moves. A channel whose level differs makes a move and raises LEVEL. R146:
the effective boot level is the boot level where it is enabled, and the next lower enabled level otherwise,
level 0 being always enabled. MONITOR STATUS reports the flag, the two boot levels and the enables, and for
each channel the activity, the level, the counts, the residency and the length of its queue, and changes
nothing. The bytes of the two STATUS results are those of log entry 14, and the kind byte of a frame of an
unknown kind is the model's choice (log entry 33). -/
def Obligations.AnswerBackAndMonitorCommands : Prop :=
  (∀ (s : State) (b m : Byte), s.op = none →
     (s.lastArrives .answerBackStatus [] b noDesig → 3 < b.toNat →
       exec (.answerBackStatus (.last b)) s = .next (s.afterLast [0x07])) ∧
     (s.lastArrives .answerBackClear [b] m noDesig → 3 < b.toNat →
       exec (.answerBackClear (.last m)) s = .next (s.afterLast [0x07])) ∧
     (∀ n : LineNo, b = BitVec.ofNat 8 n.val →
       let a := s.abSlot n
       (s.lastArrives .answerBackStatus [] b noDesig → exec (.answerBackStatus (.last b)) s = .next
         (s.afterLast ([0x00, flagByte a.frame.isSome,
             match s.lookups.find? (fun k =>
               match k.user with
               | .service m => decide (m = n)
               | _ => false) with
             | none => 0
             | some k => if k.held then 2 else 1]
           ++ (match a.frame with
               | none => [0xFF, 0xFF, 0xFF, 0xFF, 0xFF]
               | some f => beBytes 3 f.addr ++ [BitVec.ofNat 8 f.serial, f.kind])
           ++ [if s.setting (0x150 + 2 * n.val) = 0 then 0 else 1,
               BitVec.ofNat 8 (s.setting (0x151 + 2 * n.val))]
           ++ beBytes 2 a.stray ++ beBytes 2 a.cross ++ beBytes 2 a.dropped
           ++ [BitVec.ofNat 8 s.servicePtr.val]))) ∧
       (s.lastArrives .answerBackClear [b] m noDesig → exec (.answerBackClear (.last m)) s = .next
         ((s.afterLast [0x00]).setAbSlot n { a with
           stray := if m.getLsbD 0 then 0 else a.stray
           cross := if m.getLsbD 1 then 0 else a.cross
           dropped := if m.getLsbD 2 then 0 else a.dropped })))) ∧
  (∀ s : State,
     let boot := s.effectiveBoot
     let differs := (s.mon .A).level ≠ boot ∨ (s.mon .B).level ≠ boot
     let notified : State → State := fun u => if differs then u.raise .level else u
     let enabled : Nat → Prop := fun l => l = 0 ∨ s.setting (0x16D + l) = 1
     let figures : Chan → List Byte := fun c =>
       beBytes 3 (s.mon c).activity
         ++ [BitVec.ofNat 8 (s.mon c).level, BitVec.ofNat 8 (s.mon c).up, BitVec.ofNat 8 (s.mon c).down]
         ++ beBytes 2 (s.mon c).residency
         ++ [BitVec.ofNat 8 ((s.chan c).urgent.length + (s.chan c).normal.length)]
     (s.setting 0x171 ≤ 3 → boot ≤ s.setting 0x171 ∧ enabled boot ∧
       ∀ k, boot < k → k ≤ s.setting 0x171 → ¬enabled k) ∧
     (s.codeArrives .monitorEnable noDesig → ∃ t, exec .monitorEnable s = .next t ∧
       (∀ c, t.mon c =
         { s.mon c with activity := 0, level := boot, up := 0, down := 0, residency := 0 }) ∧
       t = { notified (s.afterCode [0x00]) with monitorOn := true, mons := t.mons }) ∧
     (s.codeArrives .monitorDisable noDesig → s.monitorOn = false →
       exec .monitorDisable s = .next (s.afterCode [0x00])) ∧
     (s.codeArrives .monitorDisable noDesig → s.monitorOn = true →
       ∃ t, exec .monitorDisable s = .next t ∧
         (∀ c, t.mon c =
           if (s.mon c).level = boot then s.mon c
           else { s.mon c with level := boot, up := 0, down := 0, residency := 0 }) ∧
         t = { notified (s.afterCode [0x00]) with monitorOn := false, mons := t.mons }) ∧
     (s.codeArrives .monitorStatus noDesig → exec .monitorStatus s = .next (s.afterCode
       ([0x00, flagByte s.monitorOn, BitVec.ofNat 8 (s.setting 0x171), BitVec.ofNat 8 boot,
         if s.setting 0x16E = 1 then 1 else 0, if s.setting 0x16F = 1 then 1 else 0,
         if s.setting 0x170 = 1 then 1 else 0] ++ figures .A ++ figures .B))))

/-! ## What every step keeps -/

/-- The state right after reset is as the invariants below say. -/
def Obligations.ResetMeetsTheInvariants : Prop :=
  State.reset.Canonical ∧ State.reset.DirectoryOk ∧ State.reset.AccountsOk ∧ State.reset.SettingsOk ∧
  State.reset.LinesOk ∧ State.reset.MonitorOk ∧ State.reset.ChannelsOk ∧ State.reset.PortOk ∧
  State.reset.HeldOk ∧ State.reset.LiveOk ∧ State.reset.PoolOk ∧ State.reset.RefsOk ∧
  State.reset.SerialsOk ∧ State.reset.PlacesOk

/-- The text cells and every table keep their one canonical form. 00_scope.md, R24, R119, R145, R146,
R152: every setting stays within its range, with the watermarks and the tier limits in order; and each
channel's level stays an enabled level, the effective boot level while the monitor is disabled. R58 to
R62: every line's FIFO holds at most 64 bytes, none while DISABLED, and its fill hold stands as the count
and the threshold give. R121 to R124: a channel has at most four outstanding tags and 64 queued entries;
a CLOSED one has empty bands, and a drained one is CLOSED. With them the port's registers, the clock and
the cursors stay within their ranges, and result ready stays set exactly while a result byte is unread
(R163). -/
def Obligations.StepsKeepRangesAndForms : Prop :=
  (∀ s t : State, s.Canonical → step s = .next t → t.Canonical) ∧
  ((∀ s t : State, s.SettingsOk → step s = .next t → t.SettingsOk) ∧
   (∀ s t : State, s.MonitorOk → step s = .next t → t.MonitorOk)) ∧
  (∀ s t : State, s.LinesOk → step s = .next t → t.LinesOk) ∧
  ((∀ s t : State, s.ChannelsOk → step s = .next t → t.ChannelsOk) ∧
   (∀ s t : State, s.PortOk → step s = .next t → t.PortOk))

/-- R4, R10, R17: the directory stays in strictly increasing unit address and within the capacity of the
partition in force. R12: with it, every record, and the record of an addition in progress, goes on naming
an account that is OPEN or BARRED, and the reference count of every account stays the number of records
that name it. -/
def Obligations.StepsKeepTheDirectoryInOrder : Prop :=
  (∀ s t : State, s.DirectoryOk → step s = .next t → t.DirectoryOk) ∧
  (∀ s t : State, s.RefsOk → step s = .next t → t.RefsOk)

/-- R26, R35: every account's figures stay within their ranges, and its overrun flag stays set exactly
when the balance is below minus the credit limit. -/
def Obligations.StepsKeepTheOverrunRule : Prop :=
  ∀ s t : State, s.AccountsOk → step s = .next t → t.AccountsOk

/-- R34: held of every account stays the sum of the charges of the live entries that name it. -/
def Obligations.StepsKeepHeldExact : Prop :=
  ∀ s t : State, s.HeldOk → step s = .next t → t.HeldOk

/-- R15: every record's live count stays the number of live entries that bear its address, at most 8, and
every live entry bears the address of a record. R83: with that, no two live entries of one subscriber
come to share a serial. -/
def Obligations.StepsKeepLiveCountsExact : Prop :=
  (∀ s t : State, s.LiveOk → step s = .next t → t.LiveOk) ∧
  (∀ s t : State, s.LiveOk → s.SerialsOk → step s = .next t → t.SerialsOk)

/-- R23: the free blocks and the blocks of the live entries stay together every block of the pool, each
once. -/
def Obligations.StepsKeepThePoolWhole : Prop :=
  ∀ s t : State, s.PoolOk → step s = .next t → t.PoolOk

/-- R88: every live entry stays in the one place that its state gives: an ASSEMBLING entry bound to its line
or to the port's frame, or among the launches asked for; a WAITING or LISTENING one on one slot of the Retry
Wheel; a QUEUED one in the band of its priority in its channel's queue; an ON_AIR one on its channel's
outstanding list. With it stays what the steps rest on: the requests, launches and visits that wait name what
they are for. The live counts are exact (LiveOk), so that a launch finds its record. -/
def Obligations.StepsKeepThePlaces : Prop :=
  ∀ s t : State, s.LiveOk → s.PlacesOk → step s = .next t → t.PlacesOk
end

