-- ==== Sys2Proof/Laws/State.lean ====
section
/-! SUPPORT. One lemma for each field under each named update of the state, so that no proof unfolds a
record update to read a field that the update leaves. -/

namespace Sys2Proof.Machine

/-! ### beginOp -/

@[simp] theorem State.beginOp_pendingRemovals (s : State) (o : Operation) : (s.beginOp o).pendingRemovals = s.pendingRemovals := rfl
@[simp] theorem State.beginOp_partition (s : State) (o : Operation) : (s.beginOp o).partition = s.partition := rfl
@[simp] theorem State.beginOp_directory (s : State) (o : Operation) : (s.beginOp o).directory = s.directory := rfl
@[simp] theorem State.beginOp_cursorKey (s : State) (o : Operation) : (s.beginOp o).cursorKey = s.cursorKey := rfl
@[simp] theorem State.beginOp_cursorMode (s : State) (o : Operation) : (s.beginOp o).cursorMode = s.cursorMode := rfl
@[simp] theorem State.beginOp_markMode (s : State) (o : Operation) : (s.beginOp o).markMode = s.markMode := rfl
@[simp] theorem State.beginOp_text (s : State) (o : Operation) : (s.beginOp o).text = s.text := rfl
@[simp] theorem State.beginOp_freeBlocks (s : State) (o : Operation) : (s.beginOp o).freeBlocks = s.freeBlocks := rfl
@[simp] theorem State.beginOp_poolHold (s : State) (o : Operation) : (s.beginOp o).poolHold = s.poolHold := rfl
@[simp] theorem State.beginOp_accounts (s : State) (o : Operation) : (s.beginOp o).accounts = s.accounts := rfl
@[simp] theorem State.beginOp_settings (s : State) (o : Operation) : (s.beginOp o).settings = s.settings := rfl
@[simp] theorem State.beginOp_tablePtr (s : State) (o : Operation) : (s.beginOp o).tablePtr = s.tablePtr := rfl
@[simp] theorem State.beginOp_staging (s : State) (o : Operation) : (s.beginOp o).staging = s.staging := rfl
@[simp] theorem State.beginOp_lines (s : State) (o : Operation) : (s.beginOp o).lines = s.lines := rfl
@[simp] theorem State.beginOp_slots (s : State) (o : Operation) : (s.beginOp o).slots = s.slots := rfl
@[simp] theorem State.beginOp_time (s : State) (o : Operation) : (s.beginOp o).time = s.time := rfl
@[simp] theorem State.beginOp_head (s : State) (o : Operation) : (s.beginOp o).head = s.head := rfl
@[simp] theorem State.beginOp_wheel (s : State) (o : Operation) : (s.beginOp o).wheel = s.wheel := rfl
@[simp] theorem State.beginOp_visits (s : State) (o : Operation) : (s.beginOp o).visits = s.visits := rfl
@[simp] theorem State.beginOp_chans (s : State) (o : Operation) : (s.beginOp o).chans = s.chans := rfl
@[simp] theorem State.beginOp_ab (s : State) (o : Operation) : (s.beginOp o).ab = s.ab := rfl
@[simp] theorem State.beginOp_servicePtr (s : State) (o : Operation) : (s.beginOp o).servicePtr = s.servicePtr := rfl
@[simp] theorem State.beginOp_monitorOn (s : State) (o : Operation) : (s.beginOp o).monitorOn = s.monitorOn := rfl
@[simp] theorem State.beginOp_mons (s : State) (o : Operation) : (s.beginOp o).mons = s.mons := rfl
@[simp] theorem State.beginOp_settleCursor (s : State) (o : Operation) : (s.beginOp o).settleCursor = s.settleCursor := rfl
@[simp] theorem State.beginOp_port (s : State) (o : Operation) : (s.beginOp o).port = s.port := rfl
@[simp] theorem State.beginOp_out (s : State) (o : Operation) : (s.beginOp o).out = s.out := rfl
@[simp] theorem State.beginOp_lateTicks (s : State) (o : Operation) : (s.beginOp o).lateTicks = s.lateTicks := rfl
@[simp] theorem State.beginOp_pending (s : State) (o : Operation) : (s.beginOp o).pending = s.pending := rfl

/-! ### leaveWheel -/

@[simp] theorem State.leaveWheel_op (s : State) (t : Tag) (w : Nat) : (s.leaveWheel t w).op = s.op := rfl
@[simp] theorem State.leaveWheel_pendingRemovals (s : State) (t : Tag) (w : Nat) : (s.leaveWheel t w).pendingRemovals = s.pendingRemovals := rfl
@[simp] theorem State.leaveWheel_lookups (s : State) (t : Tag) (w : Nat) : (s.leaveWheel t w).lookups = s.lookups := rfl
@[simp] theorem State.leaveWheel_partition (s : State) (t : Tag) (w : Nat) : (s.leaveWheel t w).partition = s.partition := rfl
@[simp] theorem State.leaveWheel_directory (s : State) (t : Tag) (w : Nat) : (s.leaveWheel t w).directory = s.directory := rfl
@[simp] theorem State.leaveWheel_cursorKey (s : State) (t : Tag) (w : Nat) : (s.leaveWheel t w).cursorKey = s.cursorKey := rfl
@[simp] theorem State.leaveWheel_cursorMode (s : State) (t : Tag) (w : Nat) : (s.leaveWheel t w).cursorMode = s.cursorMode := rfl
@[simp] theorem State.leaveWheel_markMode (s : State) (t : Tag) (w : Nat) : (s.leaveWheel t w).markMode = s.markMode := rfl
@[simp] theorem State.leaveWheel_text (s : State) (t : Tag) (w : Nat) : (s.leaveWheel t w).text = s.text := rfl
@[simp] theorem State.leaveWheel_freeBlocks (s : State) (t : Tag) (w : Nat) : (s.leaveWheel t w).freeBlocks = s.freeBlocks := rfl
@[simp] theorem State.leaveWheel_poolHold (s : State) (t : Tag) (w : Nat) : (s.leaveWheel t w).poolHold = s.poolHold := rfl
@[simp] theorem State.leaveWheel_accounts (s : State) (t : Tag) (w : Nat) : (s.leaveWheel t w).accounts = s.accounts := rfl
@[simp] theorem State.leaveWheel_settings (s : State) (t : Tag) (w : Nat) : (s.leaveWheel t w).settings = s.settings := rfl
@[simp] theorem State.leaveWheel_tablePtr (s : State) (t : Tag) (w : Nat) : (s.leaveWheel t w).tablePtr = s.tablePtr := rfl
@[simp] theorem State.leaveWheel_staging (s : State) (t : Tag) (w : Nat) : (s.leaveWheel t w).staging = s.staging := rfl
@[simp] theorem State.leaveWheel_lines (s : State) (t : Tag) (w : Nat) : (s.leaveWheel t w).lines = s.lines := rfl
@[simp] theorem State.leaveWheel_slots (s : State) (t : Tag) (w : Nat) : (s.leaveWheel t w).slots = s.slots := rfl
@[simp] theorem State.leaveWheel_time (s : State) (t : Tag) (w : Nat) : (s.leaveWheel t w).time = s.time := rfl
@[simp] theorem State.leaveWheel_head (s : State) (t : Tag) (w : Nat) : (s.leaveWheel t w).head = s.head := rfl
@[simp] theorem State.leaveWheel_chans (s : State) (t : Tag) (w : Nat) : (s.leaveWheel t w).chans = s.chans := rfl
@[simp] theorem State.leaveWheel_ab (s : State) (t : Tag) (w : Nat) : (s.leaveWheel t w).ab = s.ab := rfl
@[simp] theorem State.leaveWheel_servicePtr (s : State) (t : Tag) (w : Nat) : (s.leaveWheel t w).servicePtr = s.servicePtr := rfl
@[simp] theorem State.leaveWheel_monitorOn (s : State) (t : Tag) (w : Nat) : (s.leaveWheel t w).monitorOn = s.monitorOn := rfl
@[simp] theorem State.leaveWheel_mons (s : State) (t : Tag) (w : Nat) : (s.leaveWheel t w).mons = s.mons := rfl
@[simp] theorem State.leaveWheel_settleCursor (s : State) (t : Tag) (w : Nat) : (s.leaveWheel t w).settleCursor = s.settleCursor := rfl
@[simp] theorem State.leaveWheel_port (s : State) (t : Tag) (w : Nat) : (s.leaveWheel t w).port = s.port := rfl
@[simp] theorem State.leaveWheel_out (s : State) (t : Tag) (w : Nat) : (s.leaveWheel t w).out = s.out := rfl
@[simp] theorem State.leaveWheel_lateTicks (s : State) (t : Tag) (w : Nat) : (s.leaveWheel t w).lateTicks = s.lateTicks := rfl
@[simp] theorem State.leaveWheel_pending (s : State) (t : Tag) (w : Nat) : (s.leaveWheel t w).pending = s.pending := rfl

/-! ### setPort -/

@[simp] theorem State.setPort_op (s : State) (p : Port) : (s.setPort p).op = s.op := rfl
@[simp] theorem State.setPort_pendingRemovals (s : State) (p : Port) : (s.setPort p).pendingRemovals = s.pendingRemovals := rfl
@[simp] theorem State.setPort_lookups (s : State) (p : Port) : (s.setPort p).lookups = s.lookups := rfl
@[simp] theorem State.setPort_partition (s : State) (p : Port) : (s.setPort p).partition = s.partition := rfl
@[simp] theorem State.setPort_directory (s : State) (p : Port) : (s.setPort p).directory = s.directory := rfl
@[simp] theorem State.setPort_cursorKey (s : State) (p : Port) : (s.setPort p).cursorKey = s.cursorKey := rfl
@[simp] theorem State.setPort_cursorMode (s : State) (p : Port) : (s.setPort p).cursorMode = s.cursorMode := rfl
@[simp] theorem State.setPort_markMode (s : State) (p : Port) : (s.setPort p).markMode = s.markMode := rfl
@[simp] theorem State.setPort_text (s : State) (p : Port) : (s.setPort p).text = s.text := rfl
@[simp] theorem State.setPort_freeBlocks (s : State) (p : Port) : (s.setPort p).freeBlocks = s.freeBlocks := rfl
@[simp] theorem State.setPort_poolHold (s : State) (p : Port) : (s.setPort p).poolHold = s.poolHold := rfl
@[simp] theorem State.setPort_accounts (s : State) (p : Port) : (s.setPort p).accounts = s.accounts := rfl
@[simp] theorem State.setPort_settings (s : State) (p : Port) : (s.setPort p).settings = s.settings := rfl
@[simp] theorem State.setPort_tablePtr (s : State) (p : Port) : (s.setPort p).tablePtr = s.tablePtr := rfl
@[simp] theorem State.setPort_staging (s : State) (p : Port) : (s.setPort p).staging = s.staging := rfl
@[simp] theorem State.setPort_lines (s : State) (p : Port) : (s.setPort p).lines = s.lines := rfl
@[simp] theorem State.setPort_slots (s : State) (p : Port) : (s.setPort p).slots = s.slots := rfl
@[simp] theorem State.setPort_time (s : State) (p : Port) : (s.setPort p).time = s.time := rfl
@[simp] theorem State.setPort_head (s : State) (p : Port) : (s.setPort p).head = s.head := rfl
@[simp] theorem State.setPort_wheel (s : State) (p : Port) : (s.setPort p).wheel = s.wheel := rfl
@[simp] theorem State.setPort_visits (s : State) (p : Port) : (s.setPort p).visits = s.visits := rfl
@[simp] theorem State.setPort_chans (s : State) (p : Port) : (s.setPort p).chans = s.chans := rfl
@[simp] theorem State.setPort_ab (s : State) (p : Port) : (s.setPort p).ab = s.ab := rfl
@[simp] theorem State.setPort_servicePtr (s : State) (p : Port) : (s.setPort p).servicePtr = s.servicePtr := rfl
@[simp] theorem State.setPort_monitorOn (s : State) (p : Port) : (s.setPort p).monitorOn = s.monitorOn := rfl
@[simp] theorem State.setPort_mons (s : State) (p : Port) : (s.setPort p).mons = s.mons := rfl
@[simp] theorem State.setPort_settleCursor (s : State) (p : Port) : (s.setPort p).settleCursor = s.settleCursor := rfl
@[simp] theorem State.setPort_out (s : State) (p : Port) : (s.setPort p).out = s.out := rfl
@[simp] theorem State.setPort_lateTicks (s : State) (p : Port) : (s.setPort p).lateTicks = s.lateTicks := rfl
@[simp] theorem State.setPort_pending (s : State) (p : Port) : (s.setPort p).pending = s.pending := rfl

/-! ### setLine -/

@[simp] theorem State.setLine_op (s : State) (n : LineNo) (l : Line) : (s.setLine n l).op = s.op := rfl
@[simp] theorem State.setLine_pendingRemovals (s : State) (n : LineNo) (l : Line) : (s.setLine n l).pendingRemovals = s.pendingRemovals := rfl
@[simp] theorem State.setLine_lookups (s : State) (n : LineNo) (l : Line) : (s.setLine n l).lookups = s.lookups := rfl
@[simp] theorem State.setLine_partition (s : State) (n : LineNo) (l : Line) : (s.setLine n l).partition = s.partition := rfl
@[simp] theorem State.setLine_directory (s : State) (n : LineNo) (l : Line) : (s.setLine n l).directory = s.directory := rfl
@[simp] theorem State.setLine_cursorKey (s : State) (n : LineNo) (l : Line) : (s.setLine n l).cursorKey = s.cursorKey := rfl
@[simp] theorem State.setLine_cursorMode (s : State) (n : LineNo) (l : Line) : (s.setLine n l).cursorMode = s.cursorMode := rfl
@[simp] theorem State.setLine_markMode (s : State) (n : LineNo) (l : Line) : (s.setLine n l).markMode = s.markMode := rfl
@[simp] theorem State.setLine_text (s : State) (n : LineNo) (l : Line) : (s.setLine n l).text = s.text := rfl
@[simp] theorem State.setLine_freeBlocks (s : State) (n : LineNo) (l : Line) : (s.setLine n l).freeBlocks = s.freeBlocks := rfl
@[simp] theorem State.setLine_poolHold (s : State) (n : LineNo) (l : Line) : (s.setLine n l).poolHold = s.poolHold := rfl
@[simp] theorem State.setLine_accounts (s : State) (n : LineNo) (l : Line) : (s.setLine n l).accounts = s.accounts := rfl
@[simp] theorem State.setLine_settings (s : State) (n : LineNo) (l : Line) : (s.setLine n l).settings = s.settings := rfl
@[simp] theorem State.setLine_tablePtr (s : State) (n : LineNo) (l : Line) : (s.setLine n l).tablePtr = s.tablePtr := rfl
@[simp] theorem State.setLine_staging (s : State) (n : LineNo) (l : Line) : (s.setLine n l).staging = s.staging := rfl
@[simp] theorem State.setLine_slots (s : State) (n : LineNo) (l : Line) : (s.setLine n l).slots = s.slots := rfl
@[simp] theorem State.setLine_time (s : State) (n : LineNo) (l : Line) : (s.setLine n l).time = s.time := rfl
@[simp] theorem State.setLine_head (s : State) (n : LineNo) (l : Line) : (s.setLine n l).head = s.head := rfl
@[simp] theorem State.setLine_wheel (s : State) (n : LineNo) (l : Line) : (s.setLine n l).wheel = s.wheel := rfl
@[simp] theorem State.setLine_visits (s : State) (n : LineNo) (l : Line) : (s.setLine n l).visits = s.visits := rfl
@[simp] theorem State.setLine_chans (s : State) (n : LineNo) (l : Line) : (s.setLine n l).chans = s.chans := rfl
@[simp] theorem State.setLine_ab (s : State) (n : LineNo) (l : Line) : (s.setLine n l).ab = s.ab := rfl
@[simp] theorem State.setLine_servicePtr (s : State) (n : LineNo) (l : Line) : (s.setLine n l).servicePtr = s.servicePtr := rfl
@[simp] theorem State.setLine_monitorOn (s : State) (n : LineNo) (l : Line) : (s.setLine n l).monitorOn = s.monitorOn := rfl
@[simp] theorem State.setLine_mons (s : State) (n : LineNo) (l : Line) : (s.setLine n l).mons = s.mons := rfl
@[simp] theorem State.setLine_settleCursor (s : State) (n : LineNo) (l : Line) : (s.setLine n l).settleCursor = s.settleCursor := rfl
@[simp] theorem State.setLine_port (s : State) (n : LineNo) (l : Line) : (s.setLine n l).port = s.port := rfl
@[simp] theorem State.setLine_out (s : State) (n : LineNo) (l : Line) : (s.setLine n l).out = s.out := rfl
@[simp] theorem State.setLine_lateTicks (s : State) (n : LineNo) (l : Line) : (s.setLine n l).lateTicks = s.lateTicks := rfl
@[simp] theorem State.setLine_pending (s : State) (n : LineNo) (l : Line) : (s.setLine n l).pending = s.pending := rfl

/-! ### setChan -/

@[simp] theorem State.setChan_op (s : State) (c : Chan) (v : Channel) : (s.setChan c v).op = s.op := rfl
@[simp] theorem State.setChan_pendingRemovals (s : State) (c : Chan) (v : Channel) : (s.setChan c v).pendingRemovals = s.pendingRemovals := rfl
@[simp] theorem State.setChan_lookups (s : State) (c : Chan) (v : Channel) : (s.setChan c v).lookups = s.lookups := rfl
@[simp] theorem State.setChan_partition (s : State) (c : Chan) (v : Channel) : (s.setChan c v).partition = s.partition := rfl
@[simp] theorem State.setChan_directory (s : State) (c : Chan) (v : Channel) : (s.setChan c v).directory = s.directory := rfl
@[simp] theorem State.setChan_cursorKey (s : State) (c : Chan) (v : Channel) : (s.setChan c v).cursorKey = s.cursorKey := rfl
@[simp] theorem State.setChan_cursorMode (s : State) (c : Chan) (v : Channel) : (s.setChan c v).cursorMode = s.cursorMode := rfl
@[simp] theorem State.setChan_markMode (s : State) (c : Chan) (v : Channel) : (s.setChan c v).markMode = s.markMode := rfl
@[simp] theorem State.setChan_text (s : State) (c : Chan) (v : Channel) : (s.setChan c v).text = s.text := rfl
@[simp] theorem State.setChan_freeBlocks (s : State) (c : Chan) (v : Channel) : (s.setChan c v).freeBlocks = s.freeBlocks := rfl
@[simp] theorem State.setChan_poolHold (s : State) (c : Chan) (v : Channel) : (s.setChan c v).poolHold = s.poolHold := rfl
@[simp] theorem State.setChan_accounts (s : State) (c : Chan) (v : Channel) : (s.setChan c v).accounts = s.accounts := rfl
@[simp] theorem State.setChan_settings (s : State) (c : Chan) (v : Channel) : (s.setChan c v).settings = s.settings := rfl
@[simp] theorem State.setChan_tablePtr (s : State) (c : Chan) (v : Channel) : (s.setChan c v).tablePtr = s.tablePtr := rfl
@[simp] theorem State.setChan_staging (s : State) (c : Chan) (v : Channel) : (s.setChan c v).staging = s.staging := rfl
@[simp] theorem State.setChan_lines (s : State) (c : Chan) (v : Channel) : (s.setChan c v).lines = s.lines := rfl
@[simp] theorem State.setChan_slots (s : State) (c : Chan) (v : Channel) : (s.setChan c v).slots = s.slots := rfl
@[simp] theorem State.setChan_time (s : State) (c : Chan) (v : Channel) : (s.setChan c v).time = s.time := rfl
@[simp] theorem State.setChan_head (s : State) (c : Chan) (v : Channel) : (s.setChan c v).head = s.head := rfl
@[simp] theorem State.setChan_wheel (s : State) (c : Chan) (v : Channel) : (s.setChan c v).wheel = s.wheel := rfl
@[simp] theorem State.setChan_visits (s : State) (c : Chan) (v : Channel) : (s.setChan c v).visits = s.visits := rfl
@[simp] theorem State.setChan_ab (s : State) (c : Chan) (v : Channel) : (s.setChan c v).ab = s.ab := rfl
@[simp] theorem State.setChan_servicePtr (s : State) (c : Chan) (v : Channel) : (s.setChan c v).servicePtr = s.servicePtr := rfl
@[simp] theorem State.setChan_monitorOn (s : State) (c : Chan) (v : Channel) : (s.setChan c v).monitorOn = s.monitorOn := rfl
@[simp] theorem State.setChan_mons (s : State) (c : Chan) (v : Channel) : (s.setChan c v).mons = s.mons := rfl
@[simp] theorem State.setChan_settleCursor (s : State) (c : Chan) (v : Channel) : (s.setChan c v).settleCursor = s.settleCursor := rfl
@[simp] theorem State.setChan_port (s : State) (c : Chan) (v : Channel) : (s.setChan c v).port = s.port := rfl
@[simp] theorem State.setChan_out (s : State) (c : Chan) (v : Channel) : (s.setChan c v).out = s.out := rfl
@[simp] theorem State.setChan_lateTicks (s : State) (c : Chan) (v : Channel) : (s.setChan c v).lateTicks = s.lateTicks := rfl
@[simp] theorem State.setChan_pending (s : State) (c : Chan) (v : Channel) : (s.setChan c v).pending = s.pending := rfl

/-! ### setMon -/

@[simp] theorem State.setMon_op (s : State) (c : Chan) (v : Monitor) : (s.setMon c v).op = s.op := rfl
@[simp] theorem State.setMon_pendingRemovals (s : State) (c : Chan) (v : Monitor) : (s.setMon c v).pendingRemovals = s.pendingRemovals := rfl
@[simp] theorem State.setMon_lookups (s : State) (c : Chan) (v : Monitor) : (s.setMon c v).lookups = s.lookups := rfl
@[simp] theorem State.setMon_partition (s : State) (c : Chan) (v : Monitor) : (s.setMon c v).partition = s.partition := rfl
@[simp] theorem State.setMon_directory (s : State) (c : Chan) (v : Monitor) : (s.setMon c v).directory = s.directory := rfl
@[simp] theorem State.setMon_cursorKey (s : State) (c : Chan) (v : Monitor) : (s.setMon c v).cursorKey = s.cursorKey := rfl
@[simp] theorem State.setMon_cursorMode (s : State) (c : Chan) (v : Monitor) : (s.setMon c v).cursorMode = s.cursorMode := rfl
@[simp] theorem State.setMon_markMode (s : State) (c : Chan) (v : Monitor) : (s.setMon c v).markMode = s.markMode := rfl
@[simp] theorem State.setMon_text (s : State) (c : Chan) (v : Monitor) : (s.setMon c v).text = s.text := rfl
@[simp] theorem State.setMon_freeBlocks (s : State) (c : Chan) (v : Monitor) : (s.setMon c v).freeBlocks = s.freeBlocks := rfl
@[simp] theorem State.setMon_poolHold (s : State) (c : Chan) (v : Monitor) : (s.setMon c v).poolHold = s.poolHold := rfl
@[simp] theorem State.setMon_accounts (s : State) (c : Chan) (v : Monitor) : (s.setMon c v).accounts = s.accounts := rfl
@[simp] theorem State.setMon_settings (s : State) (c : Chan) (v : Monitor) : (s.setMon c v).settings = s.settings := rfl
@[simp] theorem State.setMon_tablePtr (s : State) (c : Chan) (v : Monitor) : (s.setMon c v).tablePtr = s.tablePtr := rfl
@[simp] theorem State.setMon_staging (s : State) (c : Chan) (v : Monitor) : (s.setMon c v).staging = s.staging := rfl
@[simp] theorem State.setMon_lines (s : State) (c : Chan) (v : Monitor) : (s.setMon c v).lines = s.lines := rfl
@[simp] theorem State.setMon_slots (s : State) (c : Chan) (v : Monitor) : (s.setMon c v).slots = s.slots := rfl
@[simp] theorem State.setMon_time (s : State) (c : Chan) (v : Monitor) : (s.setMon c v).time = s.time := rfl
@[simp] theorem State.setMon_head (s : State) (c : Chan) (v : Monitor) : (s.setMon c v).head = s.head := rfl
@[simp] theorem State.setMon_wheel (s : State) (c : Chan) (v : Monitor) : (s.setMon c v).wheel = s.wheel := rfl
@[simp] theorem State.setMon_visits (s : State) (c : Chan) (v : Monitor) : (s.setMon c v).visits = s.visits := rfl
@[simp] theorem State.setMon_chans (s : State) (c : Chan) (v : Monitor) : (s.setMon c v).chans = s.chans := rfl
@[simp] theorem State.setMon_ab (s : State) (c : Chan) (v : Monitor) : (s.setMon c v).ab = s.ab := rfl
@[simp] theorem State.setMon_servicePtr (s : State) (c : Chan) (v : Monitor) : (s.setMon c v).servicePtr = s.servicePtr := rfl
@[simp] theorem State.setMon_monitorOn (s : State) (c : Chan) (v : Monitor) : (s.setMon c v).monitorOn = s.monitorOn := rfl
@[simp] theorem State.setMon_settleCursor (s : State) (c : Chan) (v : Monitor) : (s.setMon c v).settleCursor = s.settleCursor := rfl
@[simp] theorem State.setMon_port (s : State) (c : Chan) (v : Monitor) : (s.setMon c v).port = s.port := rfl
@[simp] theorem State.setMon_out (s : State) (c : Chan) (v : Monitor) : (s.setMon c v).out = s.out := rfl
@[simp] theorem State.setMon_lateTicks (s : State) (c : Chan) (v : Monitor) : (s.setMon c v).lateTicks = s.lateTicks := rfl
@[simp] theorem State.setMon_pending (s : State) (c : Chan) (v : Monitor) : (s.setMon c v).pending = s.pending := rfl

/-! ### setAbSlot -/

@[simp] theorem State.setAbSlot_op (s : State) (n : LineNo) (v : AbSlot) : (s.setAbSlot n v).op = s.op := rfl
@[simp] theorem State.setAbSlot_pendingRemovals (s : State) (n : LineNo) (v : AbSlot) : (s.setAbSlot n v).pendingRemovals = s.pendingRemovals := rfl
@[simp] theorem State.setAbSlot_lookups (s : State) (n : LineNo) (v : AbSlot) : (s.setAbSlot n v).lookups = s.lookups := rfl
@[simp] theorem State.setAbSlot_partition (s : State) (n : LineNo) (v : AbSlot) : (s.setAbSlot n v).partition = s.partition := rfl
@[simp] theorem State.setAbSlot_directory (s : State) (n : LineNo) (v : AbSlot) : (s.setAbSlot n v).directory = s.directory := rfl
@[simp] theorem State.setAbSlot_cursorKey (s : State) (n : LineNo) (v : AbSlot) : (s.setAbSlot n v).cursorKey = s.cursorKey := rfl
@[simp] theorem State.setAbSlot_cursorMode (s : State) (n : LineNo) (v : AbSlot) : (s.setAbSlot n v).cursorMode = s.cursorMode := rfl
@[simp] theorem State.setAbSlot_markMode (s : State) (n : LineNo) (v : AbSlot) : (s.setAbSlot n v).markMode = s.markMode := rfl
@[simp] theorem State.setAbSlot_text (s : State) (n : LineNo) (v : AbSlot) : (s.setAbSlot n v).text = s.text := rfl
@[simp] theorem State.setAbSlot_freeBlocks (s : State) (n : LineNo) (v : AbSlot) : (s.setAbSlot n v).freeBlocks = s.freeBlocks := rfl
@[simp] theorem State.setAbSlot_poolHold (s : State) (n : LineNo) (v : AbSlot) : (s.setAbSlot n v).poolHold = s.poolHold := rfl
@[simp] theorem State.setAbSlot_accounts (s : State) (n : LineNo) (v : AbSlot) : (s.setAbSlot n v).accounts = s.accounts := rfl
@[simp] theorem State.setAbSlot_settings (s : State) (n : LineNo) (v : AbSlot) : (s.setAbSlot n v).settings = s.settings := rfl
@[simp] theorem State.setAbSlot_tablePtr (s : State) (n : LineNo) (v : AbSlot) : (s.setAbSlot n v).tablePtr = s.tablePtr := rfl
@[simp] theorem State.setAbSlot_staging (s : State) (n : LineNo) (v : AbSlot) : (s.setAbSlot n v).staging = s.staging := rfl
@[simp] theorem State.setAbSlot_lines (s : State) (n : LineNo) (v : AbSlot) : (s.setAbSlot n v).lines = s.lines := rfl
@[simp] theorem State.setAbSlot_slots (s : State) (n : LineNo) (v : AbSlot) : (s.setAbSlot n v).slots = s.slots := rfl
@[simp] theorem State.setAbSlot_time (s : State) (n : LineNo) (v : AbSlot) : (s.setAbSlot n v).time = s.time := rfl
@[simp] theorem State.setAbSlot_head (s : State) (n : LineNo) (v : AbSlot) : (s.setAbSlot n v).head = s.head := rfl
@[simp] theorem State.setAbSlot_wheel (s : State) (n : LineNo) (v : AbSlot) : (s.setAbSlot n v).wheel = s.wheel := rfl
@[simp] theorem State.setAbSlot_visits (s : State) (n : LineNo) (v : AbSlot) : (s.setAbSlot n v).visits = s.visits := rfl
@[simp] theorem State.setAbSlot_chans (s : State) (n : LineNo) (v : AbSlot) : (s.setAbSlot n v).chans = s.chans := rfl
@[simp] theorem State.setAbSlot_servicePtr (s : State) (n : LineNo) (v : AbSlot) : (s.setAbSlot n v).servicePtr = s.servicePtr := rfl
@[simp] theorem State.setAbSlot_monitorOn (s : State) (n : LineNo) (v : AbSlot) : (s.setAbSlot n v).monitorOn = s.monitorOn := rfl
@[simp] theorem State.setAbSlot_mons (s : State) (n : LineNo) (v : AbSlot) : (s.setAbSlot n v).mons = s.mons := rfl
@[simp] theorem State.setAbSlot_settleCursor (s : State) (n : LineNo) (v : AbSlot) : (s.setAbSlot n v).settleCursor = s.settleCursor := rfl
@[simp] theorem State.setAbSlot_port (s : State) (n : LineNo) (v : AbSlot) : (s.setAbSlot n v).port = s.port := rfl
@[simp] theorem State.setAbSlot_out (s : State) (n : LineNo) (v : AbSlot) : (s.setAbSlot n v).out = s.out := rfl
@[simp] theorem State.setAbSlot_lateTicks (s : State) (n : LineNo) (v : AbSlot) : (s.setAbSlot n v).lateTicks = s.lateTicks := rfl
@[simp] theorem State.setAbSlot_pending (s : State) (n : LineNo) (v : AbSlot) : (s.setAbSlot n v).pending = s.pending := rfl

/-! ### setAcct -/

@[simp] theorem State.setAcct_op (s : State) (i : Nat) (a : Account) : (s.setAcct i a).op = s.op := rfl
@[simp] theorem State.setAcct_pendingRemovals (s : State) (i : Nat) (a : Account) : (s.setAcct i a).pendingRemovals = s.pendingRemovals := rfl
@[simp] theorem State.setAcct_lookups (s : State) (i : Nat) (a : Account) : (s.setAcct i a).lookups = s.lookups := rfl
@[simp] theorem State.setAcct_partition (s : State) (i : Nat) (a : Account) : (s.setAcct i a).partition = s.partition := rfl
@[simp] theorem State.setAcct_directory (s : State) (i : Nat) (a : Account) : (s.setAcct i a).directory = s.directory := rfl
@[simp] theorem State.setAcct_cursorKey (s : State) (i : Nat) (a : Account) : (s.setAcct i a).cursorKey = s.cursorKey := rfl
@[simp] theorem State.setAcct_cursorMode (s : State) (i : Nat) (a : Account) : (s.setAcct i a).cursorMode = s.cursorMode := rfl
@[simp] theorem State.setAcct_markMode (s : State) (i : Nat) (a : Account) : (s.setAcct i a).markMode = s.markMode := rfl
@[simp] theorem State.setAcct_text (s : State) (i : Nat) (a : Account) : (s.setAcct i a).text = s.text := rfl
@[simp] theorem State.setAcct_freeBlocks (s : State) (i : Nat) (a : Account) : (s.setAcct i a).freeBlocks = s.freeBlocks := rfl
@[simp] theorem State.setAcct_poolHold (s : State) (i : Nat) (a : Account) : (s.setAcct i a).poolHold = s.poolHold := rfl
@[simp] theorem State.setAcct_settings (s : State) (i : Nat) (a : Account) : (s.setAcct i a).settings = s.settings := rfl
@[simp] theorem State.setAcct_tablePtr (s : State) (i : Nat) (a : Account) : (s.setAcct i a).tablePtr = s.tablePtr := rfl
@[simp] theorem State.setAcct_staging (s : State) (i : Nat) (a : Account) : (s.setAcct i a).staging = s.staging := rfl
@[simp] theorem State.setAcct_lines (s : State) (i : Nat) (a : Account) : (s.setAcct i a).lines = s.lines := rfl
@[simp] theorem State.setAcct_slots (s : State) (i : Nat) (a : Account) : (s.setAcct i a).slots = s.slots := rfl
@[simp] theorem State.setAcct_time (s : State) (i : Nat) (a : Account) : (s.setAcct i a).time = s.time := rfl
@[simp] theorem State.setAcct_head (s : State) (i : Nat) (a : Account) : (s.setAcct i a).head = s.head := rfl
@[simp] theorem State.setAcct_wheel (s : State) (i : Nat) (a : Account) : (s.setAcct i a).wheel = s.wheel := rfl
@[simp] theorem State.setAcct_visits (s : State) (i : Nat) (a : Account) : (s.setAcct i a).visits = s.visits := rfl
@[simp] theorem State.setAcct_chans (s : State) (i : Nat) (a : Account) : (s.setAcct i a).chans = s.chans := rfl
@[simp] theorem State.setAcct_ab (s : State) (i : Nat) (a : Account) : (s.setAcct i a).ab = s.ab := rfl
@[simp] theorem State.setAcct_servicePtr (s : State) (i : Nat) (a : Account) : (s.setAcct i a).servicePtr = s.servicePtr := rfl
@[simp] theorem State.setAcct_monitorOn (s : State) (i : Nat) (a : Account) : (s.setAcct i a).monitorOn = s.monitorOn := rfl
@[simp] theorem State.setAcct_mons (s : State) (i : Nat) (a : Account) : (s.setAcct i a).mons = s.mons := rfl
@[simp] theorem State.setAcct_settleCursor (s : State) (i : Nat) (a : Account) : (s.setAcct i a).settleCursor = s.settleCursor := rfl
@[simp] theorem State.setAcct_port (s : State) (i : Nat) (a : Account) : (s.setAcct i a).port = s.port := rfl
@[simp] theorem State.setAcct_out (s : State) (i : Nat) (a : Account) : (s.setAcct i a).out = s.out := rfl
@[simp] theorem State.setAcct_lateTicks (s : State) (i : Nat) (a : Account) : (s.setAcct i a).lateTicks = s.lateTicks := rfl
@[simp] theorem State.setAcct_pending (s : State) (i : Nat) (a : Account) : (s.setAcct i a).pending = s.pending := rfl

/-! ### setSlot -/

@[simp] theorem State.setSlot_op (s : State) (i : Nat) (v : PageSlot) : (s.setSlot i v).op = s.op := rfl
@[simp] theorem State.setSlot_pendingRemovals (s : State) (i : Nat) (v : PageSlot) : (s.setSlot i v).pendingRemovals = s.pendingRemovals := rfl
@[simp] theorem State.setSlot_lookups (s : State) (i : Nat) (v : PageSlot) : (s.setSlot i v).lookups = s.lookups := rfl
@[simp] theorem State.setSlot_partition (s : State) (i : Nat) (v : PageSlot) : (s.setSlot i v).partition = s.partition := rfl
@[simp] theorem State.setSlot_directory (s : State) (i : Nat) (v : PageSlot) : (s.setSlot i v).directory = s.directory := rfl
@[simp] theorem State.setSlot_cursorKey (s : State) (i : Nat) (v : PageSlot) : (s.setSlot i v).cursorKey = s.cursorKey := rfl
@[simp] theorem State.setSlot_cursorMode (s : State) (i : Nat) (v : PageSlot) : (s.setSlot i v).cursorMode = s.cursorMode := rfl
@[simp] theorem State.setSlot_markMode (s : State) (i : Nat) (v : PageSlot) : (s.setSlot i v).markMode = s.markMode := rfl
@[simp] theorem State.setSlot_text (s : State) (i : Nat) (v : PageSlot) : (s.setSlot i v).text = s.text := rfl
@[simp] theorem State.setSlot_freeBlocks (s : State) (i : Nat) (v : PageSlot) : (s.setSlot i v).freeBlocks = s.freeBlocks := rfl
@[simp] theorem State.setSlot_poolHold (s : State) (i : Nat) (v : PageSlot) : (s.setSlot i v).poolHold = s.poolHold := rfl
@[simp] theorem State.setSlot_accounts (s : State) (i : Nat) (v : PageSlot) : (s.setSlot i v).accounts = s.accounts := rfl
@[simp] theorem State.setSlot_settings (s : State) (i : Nat) (v : PageSlot) : (s.setSlot i v).settings = s.settings := rfl
@[simp] theorem State.setSlot_tablePtr (s : State) (i : Nat) (v : PageSlot) : (s.setSlot i v).tablePtr = s.tablePtr := rfl
@[simp] theorem State.setSlot_staging (s : State) (i : Nat) (v : PageSlot) : (s.setSlot i v).staging = s.staging := rfl
@[simp] theorem State.setSlot_lines (s : State) (i : Nat) (v : PageSlot) : (s.setSlot i v).lines = s.lines := rfl
@[simp] theorem State.setSlot_time (s : State) (i : Nat) (v : PageSlot) : (s.setSlot i v).time = s.time := rfl
@[simp] theorem State.setSlot_head (s : State) (i : Nat) (v : PageSlot) : (s.setSlot i v).head = s.head := rfl
@[simp] theorem State.setSlot_wheel (s : State) (i : Nat) (v : PageSlot) : (s.setSlot i v).wheel = s.wheel := rfl
@[simp] theorem State.setSlot_visits (s : State) (i : Nat) (v : PageSlot) : (s.setSlot i v).visits = s.visits := rfl
@[simp] theorem State.setSlot_chans (s : State) (i : Nat) (v : PageSlot) : (s.setSlot i v).chans = s.chans := rfl
@[simp] theorem State.setSlot_ab (s : State) (i : Nat) (v : PageSlot) : (s.setSlot i v).ab = s.ab := rfl
@[simp] theorem State.setSlot_servicePtr (s : State) (i : Nat) (v : PageSlot) : (s.setSlot i v).servicePtr = s.servicePtr := rfl
@[simp] theorem State.setSlot_monitorOn (s : State) (i : Nat) (v : PageSlot) : (s.setSlot i v).monitorOn = s.monitorOn := rfl
@[simp] theorem State.setSlot_mons (s : State) (i : Nat) (v : PageSlot) : (s.setSlot i v).mons = s.mons := rfl
@[simp] theorem State.setSlot_settleCursor (s : State) (i : Nat) (v : PageSlot) : (s.setSlot i v).settleCursor = s.settleCursor := rfl
@[simp] theorem State.setSlot_port (s : State) (i : Nat) (v : PageSlot) : (s.setSlot i v).port = s.port := rfl
@[simp] theorem State.setSlot_out (s : State) (i : Nat) (v : PageSlot) : (s.setSlot i v).out = s.out := rfl
@[simp] theorem State.setSlot_lateTicks (s : State) (i : Nat) (v : PageSlot) : (s.setSlot i v).lateTicks = s.lateTicks := rfl
@[simp] theorem State.setSlot_pending (s : State) (i : Nat) (v : PageSlot) : (s.setSlot i v).pending = s.pending := rfl

/-! ### setWheelList -/

@[simp] theorem State.setWheelList_op (s : State) (w : Nat) (ts : List Tag) : (s.setWheelList w ts).op = s.op := rfl
@[simp] theorem State.setWheelList_pendingRemovals (s : State) (w : Nat) (ts : List Tag) : (s.setWheelList w ts).pendingRemovals = s.pendingRemovals := rfl
@[simp] theorem State.setWheelList_lookups (s : State) (w : Nat) (ts : List Tag) : (s.setWheelList w ts).lookups = s.lookups := rfl
@[simp] theorem State.setWheelList_partition (s : State) (w : Nat) (ts : List Tag) : (s.setWheelList w ts).partition = s.partition := rfl
@[simp] theorem State.setWheelList_directory (s : State) (w : Nat) (ts : List Tag) : (s.setWheelList w ts).directory = s.directory := rfl
@[simp] theorem State.setWheelList_cursorKey (s : State) (w : Nat) (ts : List Tag) : (s.setWheelList w ts).cursorKey = s.cursorKey := rfl
@[simp] theorem State.setWheelList_cursorMode (s : State) (w : Nat) (ts : List Tag) : (s.setWheelList w ts).cursorMode = s.cursorMode := rfl
@[simp] theorem State.setWheelList_markMode (s : State) (w : Nat) (ts : List Tag) : (s.setWheelList w ts).markMode = s.markMode := rfl
@[simp] theorem State.setWheelList_text (s : State) (w : Nat) (ts : List Tag) : (s.setWheelList w ts).text = s.text := rfl
@[simp] theorem State.setWheelList_freeBlocks (s : State) (w : Nat) (ts : List Tag) : (s.setWheelList w ts).freeBlocks = s.freeBlocks := rfl
@[simp] theorem State.setWheelList_poolHold (s : State) (w : Nat) (ts : List Tag) : (s.setWheelList w ts).poolHold = s.poolHold := rfl
@[simp] theorem State.setWheelList_accounts (s : State) (w : Nat) (ts : List Tag) : (s.setWheelList w ts).accounts = s.accounts := rfl
@[simp] theorem State.setWheelList_settings (s : State) (w : Nat) (ts : List Tag) : (s.setWheelList w ts).settings = s.settings := rfl
@[simp] theorem State.setWheelList_tablePtr (s : State) (w : Nat) (ts : List Tag) : (s.setWheelList w ts).tablePtr = s.tablePtr := rfl
@[simp] theorem State.setWheelList_staging (s : State) (w : Nat) (ts : List Tag) : (s.setWheelList w ts).staging = s.staging := rfl
@[simp] theorem State.setWheelList_lines (s : State) (w : Nat) (ts : List Tag) : (s.setWheelList w ts).lines = s.lines := rfl
@[simp] theorem State.setWheelList_slots (s : State) (w : Nat) (ts : List Tag) : (s.setWheelList w ts).slots = s.slots := rfl
@[simp] theorem State.setWheelList_time (s : State) (w : Nat) (ts : List Tag) : (s.setWheelList w ts).time = s.time := rfl
@[simp] theorem State.setWheelList_head (s : State) (w : Nat) (ts : List Tag) : (s.setWheelList w ts).head = s.head := rfl
@[simp] theorem State.setWheelList_visits (s : State) (w : Nat) (ts : List Tag) : (s.setWheelList w ts).visits = s.visits := rfl
@[simp] theorem State.setWheelList_chans (s : State) (w : Nat) (ts : List Tag) : (s.setWheelList w ts).chans = s.chans := rfl
@[simp] theorem State.setWheelList_ab (s : State) (w : Nat) (ts : List Tag) : (s.setWheelList w ts).ab = s.ab := rfl
@[simp] theorem State.setWheelList_servicePtr (s : State) (w : Nat) (ts : List Tag) : (s.setWheelList w ts).servicePtr = s.servicePtr := rfl
@[simp] theorem State.setWheelList_monitorOn (s : State) (w : Nat) (ts : List Tag) : (s.setWheelList w ts).monitorOn = s.monitorOn := rfl
@[simp] theorem State.setWheelList_mons (s : State) (w : Nat) (ts : List Tag) : (s.setWheelList w ts).mons = s.mons := rfl
@[simp] theorem State.setWheelList_settleCursor (s : State) (w : Nat) (ts : List Tag) : (s.setWheelList w ts).settleCursor = s.settleCursor := rfl
@[simp] theorem State.setWheelList_port (s : State) (w : Nat) (ts : List Tag) : (s.setWheelList w ts).port = s.port := rfl
@[simp] theorem State.setWheelList_out (s : State) (w : Nat) (ts : List Tag) : (s.setWheelList w ts).out = s.out := rfl
@[simp] theorem State.setWheelList_lateTicks (s : State) (w : Nat) (ts : List Tag) : (s.setWheelList w ts).lateTicks = s.lateTicks := rfl
@[simp] theorem State.setWheelList_pending (s : State) (w : Nat) (ts : List Tag) : (s.setWheelList w ts).pending = s.pending := rfl

/-! ### setSetting -/

@[simp] theorem State.setSetting_op (s : State) (a v : Nat) : (s.setSetting a v).op = s.op := rfl
@[simp] theorem State.setSetting_pendingRemovals (s : State) (a v : Nat) : (s.setSetting a v).pendingRemovals = s.pendingRemovals := rfl
@[simp] theorem State.setSetting_lookups (s : State) (a v : Nat) : (s.setSetting a v).lookups = s.lookups := rfl
@[simp] theorem State.setSetting_partition (s : State) (a v : Nat) : (s.setSetting a v).partition = s.partition := rfl
@[simp] theorem State.setSetting_directory (s : State) (a v : Nat) : (s.setSetting a v).directory = s.directory := rfl
@[simp] theorem State.setSetting_cursorKey (s : State) (a v : Nat) : (s.setSetting a v).cursorKey = s.cursorKey := rfl
@[simp] theorem State.setSetting_cursorMode (s : State) (a v : Nat) : (s.setSetting a v).cursorMode = s.cursorMode := rfl
@[simp] theorem State.setSetting_markMode (s : State) (a v : Nat) : (s.setSetting a v).markMode = s.markMode := rfl
@[simp] theorem State.setSetting_text (s : State) (a v : Nat) : (s.setSetting a v).text = s.text := rfl
@[simp] theorem State.setSetting_freeBlocks (s : State) (a v : Nat) : (s.setSetting a v).freeBlocks = s.freeBlocks := rfl
@[simp] theorem State.setSetting_poolHold (s : State) (a v : Nat) : (s.setSetting a v).poolHold = s.poolHold := rfl
@[simp] theorem State.setSetting_accounts (s : State) (a v : Nat) : (s.setSetting a v).accounts = s.accounts := rfl
@[simp] theorem State.setSetting_tablePtr (s : State) (a v : Nat) : (s.setSetting a v).tablePtr = s.tablePtr := rfl
@[simp] theorem State.setSetting_staging (s : State) (a v : Nat) : (s.setSetting a v).staging = s.staging := rfl
@[simp] theorem State.setSetting_lines (s : State) (a v : Nat) : (s.setSetting a v).lines = s.lines := rfl
@[simp] theorem State.setSetting_slots (s : State) (a v : Nat) : (s.setSetting a v).slots = s.slots := rfl
@[simp] theorem State.setSetting_time (s : State) (a v : Nat) : (s.setSetting a v).time = s.time := rfl
@[simp] theorem State.setSetting_head (s : State) (a v : Nat) : (s.setSetting a v).head = s.head := rfl
@[simp] theorem State.setSetting_wheel (s : State) (a v : Nat) : (s.setSetting a v).wheel = s.wheel := rfl
@[simp] theorem State.setSetting_visits (s : State) (a v : Nat) : (s.setSetting a v).visits = s.visits := rfl
@[simp] theorem State.setSetting_chans (s : State) (a v : Nat) : (s.setSetting a v).chans = s.chans := rfl
@[simp] theorem State.setSetting_ab (s : State) (a v : Nat) : (s.setSetting a v).ab = s.ab := rfl
@[simp] theorem State.setSetting_servicePtr (s : State) (a v : Nat) : (s.setSetting a v).servicePtr = s.servicePtr := rfl
@[simp] theorem State.setSetting_monitorOn (s : State) (a v : Nat) : (s.setSetting a v).monitorOn = s.monitorOn := rfl
@[simp] theorem State.setSetting_mons (s : State) (a v : Nat) : (s.setSetting a v).mons = s.mons := rfl
@[simp] theorem State.setSetting_settleCursor (s : State) (a v : Nat) : (s.setSetting a v).settleCursor = s.settleCursor := rfl
@[simp] theorem State.setSetting_port (s : State) (a v : Nat) : (s.setSetting a v).port = s.port := rfl
@[simp] theorem State.setSetting_out (s : State) (a v : Nat) : (s.setSetting a v).out = s.out := rfl
@[simp] theorem State.setSetting_lateTicks (s : State) (a v : Nat) : (s.setSetting a v).lateTicks = s.lateTicks := rfl
@[simp] theorem State.setSetting_pending (s : State) (a v : Nat) : (s.setSetting a v).pending = s.pending := rfl

/-! ### setEnc -/

@[simp] theorem State.setEnc_op (s : State) (c : Chan) (bs : List Byte) : (s.setEnc c bs).op = s.op := rfl
@[simp] theorem State.setEnc_pendingRemovals (s : State) (c : Chan) (bs : List Byte) : (s.setEnc c bs).pendingRemovals = s.pendingRemovals := rfl
@[simp] theorem State.setEnc_lookups (s : State) (c : Chan) (bs : List Byte) : (s.setEnc c bs).lookups = s.lookups := rfl
@[simp] theorem State.setEnc_partition (s : State) (c : Chan) (bs : List Byte) : (s.setEnc c bs).partition = s.partition := rfl
@[simp] theorem State.setEnc_directory (s : State) (c : Chan) (bs : List Byte) : (s.setEnc c bs).directory = s.directory := rfl
@[simp] theorem State.setEnc_cursorKey (s : State) (c : Chan) (bs : List Byte) : (s.setEnc c bs).cursorKey = s.cursorKey := rfl
@[simp] theorem State.setEnc_cursorMode (s : State) (c : Chan) (bs : List Byte) : (s.setEnc c bs).cursorMode = s.cursorMode := rfl
@[simp] theorem State.setEnc_markMode (s : State) (c : Chan) (bs : List Byte) : (s.setEnc c bs).markMode = s.markMode := rfl
@[simp] theorem State.setEnc_text (s : State) (c : Chan) (bs : List Byte) : (s.setEnc c bs).text = s.text := rfl
@[simp] theorem State.setEnc_freeBlocks (s : State) (c : Chan) (bs : List Byte) : (s.setEnc c bs).freeBlocks = s.freeBlocks := rfl
@[simp] theorem State.setEnc_poolHold (s : State) (c : Chan) (bs : List Byte) : (s.setEnc c bs).poolHold = s.poolHold := rfl
@[simp] theorem State.setEnc_accounts (s : State) (c : Chan) (bs : List Byte) : (s.setEnc c bs).accounts = s.accounts := rfl
@[simp] theorem State.setEnc_settings (s : State) (c : Chan) (bs : List Byte) : (s.setEnc c bs).settings = s.settings := rfl
@[simp] theorem State.setEnc_tablePtr (s : State) (c : Chan) (bs : List Byte) : (s.setEnc c bs).tablePtr = s.tablePtr := rfl
@[simp] theorem State.setEnc_staging (s : State) (c : Chan) (bs : List Byte) : (s.setEnc c bs).staging = s.staging := rfl
@[simp] theorem State.setEnc_lines (s : State) (c : Chan) (bs : List Byte) : (s.setEnc c bs).lines = s.lines := rfl
@[simp] theorem State.setEnc_slots (s : State) (c : Chan) (bs : List Byte) : (s.setEnc c bs).slots = s.slots := rfl
@[simp] theorem State.setEnc_time (s : State) (c : Chan) (bs : List Byte) : (s.setEnc c bs).time = s.time := rfl
@[simp] theorem State.setEnc_head (s : State) (c : Chan) (bs : List Byte) : (s.setEnc c bs).head = s.head := rfl
@[simp] theorem State.setEnc_wheel (s : State) (c : Chan) (bs : List Byte) : (s.setEnc c bs).wheel = s.wheel := rfl
@[simp] theorem State.setEnc_visits (s : State) (c : Chan) (bs : List Byte) : (s.setEnc c bs).visits = s.visits := rfl
@[simp] theorem State.setEnc_chans (s : State) (c : Chan) (bs : List Byte) : (s.setEnc c bs).chans = s.chans := rfl
@[simp] theorem State.setEnc_ab (s : State) (c : Chan) (bs : List Byte) : (s.setEnc c bs).ab = s.ab := rfl
@[simp] theorem State.setEnc_servicePtr (s : State) (c : Chan) (bs : List Byte) : (s.setEnc c bs).servicePtr = s.servicePtr := rfl
@[simp] theorem State.setEnc_monitorOn (s : State) (c : Chan) (bs : List Byte) : (s.setEnc c bs).monitorOn = s.monitorOn := rfl
@[simp] theorem State.setEnc_mons (s : State) (c : Chan) (bs : List Byte) : (s.setEnc c bs).mons = s.mons := rfl
@[simp] theorem State.setEnc_settleCursor (s : State) (c : Chan) (bs : List Byte) : (s.setEnc c bs).settleCursor = s.settleCursor := rfl
@[simp] theorem State.setEnc_port (s : State) (c : Chan) (bs : List Byte) : (s.setEnc c bs).port = s.port := rfl
@[simp] theorem State.setEnc_lateTicks (s : State) (c : Chan) (bs : List Byte) : (s.setEnc c bs).lateTicks = s.lateTicks := rfl
@[simp] theorem State.setEnc_pending (s : State) (c : Chan) (bs : List Byte) : (s.setEnc c bs).pending = s.pending := rfl

/-! ### setRcv -/

@[simp] theorem State.setRcv_op (s : State) (n : LineNo) (bs : List Byte) : (s.setRcv n bs).op = s.op := rfl
@[simp] theorem State.setRcv_pendingRemovals (s : State) (n : LineNo) (bs : List Byte) : (s.setRcv n bs).pendingRemovals = s.pendingRemovals := rfl
@[simp] theorem State.setRcv_lookups (s : State) (n : LineNo) (bs : List Byte) : (s.setRcv n bs).lookups = s.lookups := rfl
@[simp] theorem State.setRcv_partition (s : State) (n : LineNo) (bs : List Byte) : (s.setRcv n bs).partition = s.partition := rfl
@[simp] theorem State.setRcv_directory (s : State) (n : LineNo) (bs : List Byte) : (s.setRcv n bs).directory = s.directory := rfl
@[simp] theorem State.setRcv_cursorKey (s : State) (n : LineNo) (bs : List Byte) : (s.setRcv n bs).cursorKey = s.cursorKey := rfl
@[simp] theorem State.setRcv_cursorMode (s : State) (n : LineNo) (bs : List Byte) : (s.setRcv n bs).cursorMode = s.cursorMode := rfl
@[simp] theorem State.setRcv_markMode (s : State) (n : LineNo) (bs : List Byte) : (s.setRcv n bs).markMode = s.markMode := rfl
@[simp] theorem State.setRcv_text (s : State) (n : LineNo) (bs : List Byte) : (s.setRcv n bs).text = s.text := rfl
@[simp] theorem State.setRcv_freeBlocks (s : State) (n : LineNo) (bs : List Byte) : (s.setRcv n bs).freeBlocks = s.freeBlocks := rfl
@[simp] theorem State.setRcv_poolHold (s : State) (n : LineNo) (bs : List Byte) : (s.setRcv n bs).poolHold = s.poolHold := rfl
@[simp] theorem State.setRcv_accounts (s : State) (n : LineNo) (bs : List Byte) : (s.setRcv n bs).accounts = s.accounts := rfl
@[simp] theorem State.setRcv_settings (s : State) (n : LineNo) (bs : List Byte) : (s.setRcv n bs).settings = s.settings := rfl
@[simp] theorem State.setRcv_tablePtr (s : State) (n : LineNo) (bs : List Byte) : (s.setRcv n bs).tablePtr = s.tablePtr := rfl
@[simp] theorem State.setRcv_staging (s : State) (n : LineNo) (bs : List Byte) : (s.setRcv n bs).staging = s.staging := rfl
@[simp] theorem State.setRcv_lines (s : State) (n : LineNo) (bs : List Byte) : (s.setRcv n bs).lines = s.lines := rfl
@[simp] theorem State.setRcv_slots (s : State) (n : LineNo) (bs : List Byte) : (s.setRcv n bs).slots = s.slots := rfl
@[simp] theorem State.setRcv_time (s : State) (n : LineNo) (bs : List Byte) : (s.setRcv n bs).time = s.time := rfl
@[simp] theorem State.setRcv_head (s : State) (n : LineNo) (bs : List Byte) : (s.setRcv n bs).head = s.head := rfl
@[simp] theorem State.setRcv_wheel (s : State) (n : LineNo) (bs : List Byte) : (s.setRcv n bs).wheel = s.wheel := rfl
@[simp] theorem State.setRcv_visits (s : State) (n : LineNo) (bs : List Byte) : (s.setRcv n bs).visits = s.visits := rfl
@[simp] theorem State.setRcv_chans (s : State) (n : LineNo) (bs : List Byte) : (s.setRcv n bs).chans = s.chans := rfl
@[simp] theorem State.setRcv_ab (s : State) (n : LineNo) (bs : List Byte) : (s.setRcv n bs).ab = s.ab := rfl
@[simp] theorem State.setRcv_servicePtr (s : State) (n : LineNo) (bs : List Byte) : (s.setRcv n bs).servicePtr = s.servicePtr := rfl
@[simp] theorem State.setRcv_monitorOn (s : State) (n : LineNo) (bs : List Byte) : (s.setRcv n bs).monitorOn = s.monitorOn := rfl
@[simp] theorem State.setRcv_mons (s : State) (n : LineNo) (bs : List Byte) : (s.setRcv n bs).mons = s.mons := rfl
@[simp] theorem State.setRcv_settleCursor (s : State) (n : LineNo) (bs : List Byte) : (s.setRcv n bs).settleCursor = s.settleCursor := rfl
@[simp] theorem State.setRcv_port (s : State) (n : LineNo) (bs : List Byte) : (s.setRcv n bs).port = s.port := rfl
@[simp] theorem State.setRcv_lateTicks (s : State) (n : LineNo) (bs : List Byte) : (s.setRcv n bs).lateTicks = s.lateTicks := rfl
@[simp] theorem State.setRcv_pending (s : State) (n : LineNo) (bs : List Byte) : (s.setRcv n bs).pending = s.pending := rfl

/-! ### raise -/

@[simp] theorem State.raise_op (s : State) (c : Cause) : (s.raise c).op = s.op := rfl
@[simp] theorem State.raise_pendingRemovals (s : State) (c : Cause) : (s.raise c).pendingRemovals = s.pendingRemovals := rfl
@[simp] theorem State.raise_lookups (s : State) (c : Cause) : (s.raise c).lookups = s.lookups := rfl
@[simp] theorem State.raise_partition (s : State) (c : Cause) : (s.raise c).partition = s.partition := rfl
@[simp] theorem State.raise_directory (s : State) (c : Cause) : (s.raise c).directory = s.directory := rfl
@[simp] theorem State.raise_cursorKey (s : State) (c : Cause) : (s.raise c).cursorKey = s.cursorKey := rfl
@[simp] theorem State.raise_cursorMode (s : State) (c : Cause) : (s.raise c).cursorMode = s.cursorMode := rfl
@[simp] theorem State.raise_markMode (s : State) (c : Cause) : (s.raise c).markMode = s.markMode := rfl
@[simp] theorem State.raise_text (s : State) (c : Cause) : (s.raise c).text = s.text := rfl
@[simp] theorem State.raise_freeBlocks (s : State) (c : Cause) : (s.raise c).freeBlocks = s.freeBlocks := rfl
@[simp] theorem State.raise_poolHold (s : State) (c : Cause) : (s.raise c).poolHold = s.poolHold := rfl
@[simp] theorem State.raise_accounts (s : State) (c : Cause) : (s.raise c).accounts = s.accounts := rfl
@[simp] theorem State.raise_settings (s : State) (c : Cause) : (s.raise c).settings = s.settings := rfl
@[simp] theorem State.raise_tablePtr (s : State) (c : Cause) : (s.raise c).tablePtr = s.tablePtr := rfl
@[simp] theorem State.raise_staging (s : State) (c : Cause) : (s.raise c).staging = s.staging := rfl
@[simp] theorem State.raise_lines (s : State) (c : Cause) : (s.raise c).lines = s.lines := rfl
@[simp] theorem State.raise_slots (s : State) (c : Cause) : (s.raise c).slots = s.slots := rfl
@[simp] theorem State.raise_time (s : State) (c : Cause) : (s.raise c).time = s.time := rfl
@[simp] theorem State.raise_head (s : State) (c : Cause) : (s.raise c).head = s.head := rfl
@[simp] theorem State.raise_wheel (s : State) (c : Cause) : (s.raise c).wheel = s.wheel := rfl
@[simp] theorem State.raise_visits (s : State) (c : Cause) : (s.raise c).visits = s.visits := rfl
@[simp] theorem State.raise_chans (s : State) (c : Cause) : (s.raise c).chans = s.chans := rfl
@[simp] theorem State.raise_ab (s : State) (c : Cause) : (s.raise c).ab = s.ab := rfl
@[simp] theorem State.raise_servicePtr (s : State) (c : Cause) : (s.raise c).servicePtr = s.servicePtr := rfl
@[simp] theorem State.raise_monitorOn (s : State) (c : Cause) : (s.raise c).monitorOn = s.monitorOn := rfl
@[simp] theorem State.raise_mons (s : State) (c : Cause) : (s.raise c).mons = s.mons := rfl
@[simp] theorem State.raise_settleCursor (s : State) (c : Cause) : (s.raise c).settleCursor = s.settleCursor := rfl
@[simp] theorem State.raise_out (s : State) (c : Cause) : (s.raise c).out = s.out := rfl
@[simp] theorem State.raise_lateTicks (s : State) (c : Cause) : (s.raise c).lateTicks = s.lateTicks := rfl
@[simp] theorem State.raise_pending (s : State) (c : Cause) : (s.raise c).pending = s.pending := rfl

/-! ### setResult -/

@[simp] theorem State.setResult_op (s : State) (bs : List Byte) : (s.setResult bs).op = s.op := rfl
@[simp] theorem State.setResult_pendingRemovals (s : State) (bs : List Byte) : (s.setResult bs).pendingRemovals = s.pendingRemovals := rfl
@[simp] theorem State.setResult_lookups (s : State) (bs : List Byte) : (s.setResult bs).lookups = s.lookups := rfl
@[simp] theorem State.setResult_partition (s : State) (bs : List Byte) : (s.setResult bs).partition = s.partition := rfl
@[simp] theorem State.setResult_directory (s : State) (bs : List Byte) : (s.setResult bs).directory = s.directory := rfl
@[simp] theorem State.setResult_cursorKey (s : State) (bs : List Byte) : (s.setResult bs).cursorKey = s.cursorKey := rfl
@[simp] theorem State.setResult_cursorMode (s : State) (bs : List Byte) : (s.setResult bs).cursorMode = s.cursorMode := rfl
@[simp] theorem State.setResult_markMode (s : State) (bs : List Byte) : (s.setResult bs).markMode = s.markMode := rfl
@[simp] theorem State.setResult_text (s : State) (bs : List Byte) : (s.setResult bs).text = s.text := rfl
@[simp] theorem State.setResult_freeBlocks (s : State) (bs : List Byte) : (s.setResult bs).freeBlocks = s.freeBlocks := rfl
@[simp] theorem State.setResult_poolHold (s : State) (bs : List Byte) : (s.setResult bs).poolHold = s.poolHold := rfl
@[simp] theorem State.setResult_accounts (s : State) (bs : List Byte) : (s.setResult bs).accounts = s.accounts := rfl
@[simp] theorem State.setResult_settings (s : State) (bs : List Byte) : (s.setResult bs).settings = s.settings := rfl
@[simp] theorem State.setResult_tablePtr (s : State) (bs : List Byte) : (s.setResult bs).tablePtr = s.tablePtr := rfl
@[simp] theorem State.setResult_staging (s : State) (bs : List Byte) : (s.setResult bs).staging = s.staging := rfl
@[simp] theorem State.setResult_lines (s : State) (bs : List Byte) : (s.setResult bs).lines = s.lines := rfl
@[simp] theorem State.setResult_slots (s : State) (bs : List Byte) : (s.setResult bs).slots = s.slots := rfl
@[simp] theorem State.setResult_time (s : State) (bs : List Byte) : (s.setResult bs).time = s.time := rfl
@[simp] theorem State.setResult_head (s : State) (bs : List Byte) : (s.setResult bs).head = s.head := rfl
@[simp] theorem State.setResult_wheel (s : State) (bs : List Byte) : (s.setResult bs).wheel = s.wheel := rfl
@[simp] theorem State.setResult_visits (s : State) (bs : List Byte) : (s.setResult bs).visits = s.visits := rfl
@[simp] theorem State.setResult_chans (s : State) (bs : List Byte) : (s.setResult bs).chans = s.chans := rfl
@[simp] theorem State.setResult_ab (s : State) (bs : List Byte) : (s.setResult bs).ab = s.ab := rfl
@[simp] theorem State.setResult_servicePtr (s : State) (bs : List Byte) : (s.setResult bs).servicePtr = s.servicePtr := rfl
@[simp] theorem State.setResult_monitorOn (s : State) (bs : List Byte) : (s.setResult bs).monitorOn = s.monitorOn := rfl
@[simp] theorem State.setResult_mons (s : State) (bs : List Byte) : (s.setResult bs).mons = s.mons := rfl
@[simp] theorem State.setResult_settleCursor (s : State) (bs : List Byte) : (s.setResult bs).settleCursor = s.settleCursor := rfl
@[simp] theorem State.setResult_out (s : State) (bs : List Byte) : (s.setResult bs).out = s.out := rfl
@[simp] theorem State.setResult_lateTicks (s : State) (bs : List Byte) : (s.setResult bs).lateTicks = s.lateTicks := rfl
@[simp] theorem State.setResult_pending (s : State) (bs : List Byte) : (s.setResult bs).pending = s.pending := rfl

/-! ### answer -/

@[simp] theorem State.answer_op (s : State) (c : Code) (bs : List Byte) : (s.answer c bs).op = s.op := rfl
@[simp] theorem State.answer_pendingRemovals (s : State) (c : Code) (bs : List Byte) : (s.answer c bs).pendingRemovals = s.pendingRemovals := rfl
@[simp] theorem State.answer_lookups (s : State) (c : Code) (bs : List Byte) : (s.answer c bs).lookups = s.lookups := rfl
@[simp] theorem State.answer_partition (s : State) (c : Code) (bs : List Byte) : (s.answer c bs).partition = s.partition := rfl
@[simp] theorem State.answer_directory (s : State) (c : Code) (bs : List Byte) : (s.answer c bs).directory = s.directory := rfl
@[simp] theorem State.answer_cursorKey (s : State) (c : Code) (bs : List Byte) : (s.answer c bs).cursorKey = s.cursorKey := rfl
@[simp] theorem State.answer_cursorMode (s : State) (c : Code) (bs : List Byte) : (s.answer c bs).cursorMode = s.cursorMode := rfl
@[simp] theorem State.answer_markMode (s : State) (c : Code) (bs : List Byte) : (s.answer c bs).markMode = s.markMode := rfl
@[simp] theorem State.answer_text (s : State) (c : Code) (bs : List Byte) : (s.answer c bs).text = s.text := rfl
@[simp] theorem State.answer_freeBlocks (s : State) (c : Code) (bs : List Byte) : (s.answer c bs).freeBlocks = s.freeBlocks := rfl
@[simp] theorem State.answer_poolHold (s : State) (c : Code) (bs : List Byte) : (s.answer c bs).poolHold = s.poolHold := rfl
@[simp] theorem State.answer_accounts (s : State) (c : Code) (bs : List Byte) : (s.answer c bs).accounts = s.accounts := rfl
@[simp] theorem State.answer_settings (s : State) (c : Code) (bs : List Byte) : (s.answer c bs).settings = s.settings := rfl
@[simp] theorem State.answer_tablePtr (s : State) (c : Code) (bs : List Byte) : (s.answer c bs).tablePtr = s.tablePtr := rfl
@[simp] theorem State.answer_staging (s : State) (c : Code) (bs : List Byte) : (s.answer c bs).staging = s.staging := rfl
@[simp] theorem State.answer_lines (s : State) (c : Code) (bs : List Byte) : (s.answer c bs).lines = s.lines := rfl
@[simp] theorem State.answer_slots (s : State) (c : Code) (bs : List Byte) : (s.answer c bs).slots = s.slots := rfl
@[simp] theorem State.answer_time (s : State) (c : Code) (bs : List Byte) : (s.answer c bs).time = s.time := rfl
@[simp] theorem State.answer_head (s : State) (c : Code) (bs : List Byte) : (s.answer c bs).head = s.head := rfl
@[simp] theorem State.answer_wheel (s : State) (c : Code) (bs : List Byte) : (s.answer c bs).wheel = s.wheel := rfl
@[simp] theorem State.answer_visits (s : State) (c : Code) (bs : List Byte) : (s.answer c bs).visits = s.visits := rfl
@[simp] theorem State.answer_chans (s : State) (c : Code) (bs : List Byte) : (s.answer c bs).chans = s.chans := rfl
@[simp] theorem State.answer_ab (s : State) (c : Code) (bs : List Byte) : (s.answer c bs).ab = s.ab := rfl
@[simp] theorem State.answer_servicePtr (s : State) (c : Code) (bs : List Byte) : (s.answer c bs).servicePtr = s.servicePtr := rfl
@[simp] theorem State.answer_monitorOn (s : State) (c : Code) (bs : List Byte) : (s.answer c bs).monitorOn = s.monitorOn := rfl
@[simp] theorem State.answer_mons (s : State) (c : Code) (bs : List Byte) : (s.answer c bs).mons = s.mons := rfl
@[simp] theorem State.answer_settleCursor (s : State) (c : Code) (bs : List Byte) : (s.answer c bs).settleCursor = s.settleCursor := rfl
@[simp] theorem State.answer_out (s : State) (c : Code) (bs : List Byte) : (s.answer c bs).out = s.out := rfl
@[simp] theorem State.answer_lateTicks (s : State) (c : Code) (bs : List Byte) : (s.answer c bs).lateTicks = s.lateTicks := rfl
@[simp] theorem State.answer_pending (s : State) (c : Code) (bs : List Byte) : (s.answer c bs).pending = s.pending := rfl

/-! ### clearResult -/

@[simp] theorem State.clearResult_op (s : State) : (s.clearResult).op = s.op := rfl
@[simp] theorem State.clearResult_pendingRemovals (s : State) : (s.clearResult).pendingRemovals = s.pendingRemovals := rfl
@[simp] theorem State.clearResult_lookups (s : State) : (s.clearResult).lookups = s.lookups := rfl
@[simp] theorem State.clearResult_partition (s : State) : (s.clearResult).partition = s.partition := rfl
@[simp] theorem State.clearResult_directory (s : State) : (s.clearResult).directory = s.directory := rfl
@[simp] theorem State.clearResult_cursorKey (s : State) : (s.clearResult).cursorKey = s.cursorKey := rfl
@[simp] theorem State.clearResult_cursorMode (s : State) : (s.clearResult).cursorMode = s.cursorMode := rfl
@[simp] theorem State.clearResult_markMode (s : State) : (s.clearResult).markMode = s.markMode := rfl
@[simp] theorem State.clearResult_text (s : State) : (s.clearResult).text = s.text := rfl
@[simp] theorem State.clearResult_freeBlocks (s : State) : (s.clearResult).freeBlocks = s.freeBlocks := rfl
@[simp] theorem State.clearResult_poolHold (s : State) : (s.clearResult).poolHold = s.poolHold := rfl
@[simp] theorem State.clearResult_accounts (s : State) : (s.clearResult).accounts = s.accounts := rfl
@[simp] theorem State.clearResult_settings (s : State) : (s.clearResult).settings = s.settings := rfl
@[simp] theorem State.clearResult_tablePtr (s : State) : (s.clearResult).tablePtr = s.tablePtr := rfl
@[simp] theorem State.clearResult_staging (s : State) : (s.clearResult).staging = s.staging := rfl
@[simp] theorem State.clearResult_lines (s : State) : (s.clearResult).lines = s.lines := rfl
@[simp] theorem State.clearResult_slots (s : State) : (s.clearResult).slots = s.slots := rfl
@[simp] theorem State.clearResult_time (s : State) : (s.clearResult).time = s.time := rfl
@[simp] theorem State.clearResult_head (s : State) : (s.clearResult).head = s.head := rfl
@[simp] theorem State.clearResult_wheel (s : State) : (s.clearResult).wheel = s.wheel := rfl
@[simp] theorem State.clearResult_visits (s : State) : (s.clearResult).visits = s.visits := rfl
@[simp] theorem State.clearResult_chans (s : State) : (s.clearResult).chans = s.chans := rfl
@[simp] theorem State.clearResult_ab (s : State) : (s.clearResult).ab = s.ab := rfl
@[simp] theorem State.clearResult_servicePtr (s : State) : (s.clearResult).servicePtr = s.servicePtr := rfl
@[simp] theorem State.clearResult_monitorOn (s : State) : (s.clearResult).monitorOn = s.monitorOn := rfl
@[simp] theorem State.clearResult_mons (s : State) : (s.clearResult).mons = s.mons := rfl
@[simp] theorem State.clearResult_settleCursor (s : State) : (s.clearResult).settleCursor = s.settleCursor := rfl
@[simp] theorem State.clearResult_out (s : State) : (s.clearResult).out = s.out := rfl
@[simp] theorem State.clearResult_lateTicks (s : State) : (s.clearResult).lateTicks = s.lateTicks := rfl
@[simp] theorem State.clearResult_pending (s : State) : (s.clearResult).pending = s.pending := rfl

/-! ### setFrame -/

@[simp] theorem State.setFrame_op (s : State) (f : Option Frame) : (s.setFrame f).op = s.op := rfl
@[simp] theorem State.setFrame_pendingRemovals (s : State) (f : Option Frame) : (s.setFrame f).pendingRemovals = s.pendingRemovals := rfl
@[simp] theorem State.setFrame_lookups (s : State) (f : Option Frame) : (s.setFrame f).lookups = s.lookups := rfl
@[simp] theorem State.setFrame_partition (s : State) (f : Option Frame) : (s.setFrame f).partition = s.partition := rfl
@[simp] theorem State.setFrame_directory (s : State) (f : Option Frame) : (s.setFrame f).directory = s.directory := rfl
@[simp] theorem State.setFrame_cursorKey (s : State) (f : Option Frame) : (s.setFrame f).cursorKey = s.cursorKey := rfl
@[simp] theorem State.setFrame_cursorMode (s : State) (f : Option Frame) : (s.setFrame f).cursorMode = s.cursorMode := rfl
@[simp] theorem State.setFrame_markMode (s : State) (f : Option Frame) : (s.setFrame f).markMode = s.markMode := rfl
@[simp] theorem State.setFrame_text (s : State) (f : Option Frame) : (s.setFrame f).text = s.text := rfl
@[simp] theorem State.setFrame_freeBlocks (s : State) (f : Option Frame) : (s.setFrame f).freeBlocks = s.freeBlocks := rfl
@[simp] theorem State.setFrame_poolHold (s : State) (f : Option Frame) : (s.setFrame f).poolHold = s.poolHold := rfl
@[simp] theorem State.setFrame_accounts (s : State) (f : Option Frame) : (s.setFrame f).accounts = s.accounts := rfl
@[simp] theorem State.setFrame_settings (s : State) (f : Option Frame) : (s.setFrame f).settings = s.settings := rfl
@[simp] theorem State.setFrame_tablePtr (s : State) (f : Option Frame) : (s.setFrame f).tablePtr = s.tablePtr := rfl
@[simp] theorem State.setFrame_staging (s : State) (f : Option Frame) : (s.setFrame f).staging = s.staging := rfl
@[simp] theorem State.setFrame_lines (s : State) (f : Option Frame) : (s.setFrame f).lines = s.lines := rfl
@[simp] theorem State.setFrame_slots (s : State) (f : Option Frame) : (s.setFrame f).slots = s.slots := rfl
@[simp] theorem State.setFrame_time (s : State) (f : Option Frame) : (s.setFrame f).time = s.time := rfl
@[simp] theorem State.setFrame_head (s : State) (f : Option Frame) : (s.setFrame f).head = s.head := rfl
@[simp] theorem State.setFrame_wheel (s : State) (f : Option Frame) : (s.setFrame f).wheel = s.wheel := rfl
@[simp] theorem State.setFrame_visits (s : State) (f : Option Frame) : (s.setFrame f).visits = s.visits := rfl
@[simp] theorem State.setFrame_chans (s : State) (f : Option Frame) : (s.setFrame f).chans = s.chans := rfl
@[simp] theorem State.setFrame_ab (s : State) (f : Option Frame) : (s.setFrame f).ab = s.ab := rfl
@[simp] theorem State.setFrame_servicePtr (s : State) (f : Option Frame) : (s.setFrame f).servicePtr = s.servicePtr := rfl
@[simp] theorem State.setFrame_monitorOn (s : State) (f : Option Frame) : (s.setFrame f).monitorOn = s.monitorOn := rfl
@[simp] theorem State.setFrame_mons (s : State) (f : Option Frame) : (s.setFrame f).mons = s.mons := rfl
@[simp] theorem State.setFrame_settleCursor (s : State) (f : Option Frame) : (s.setFrame f).settleCursor = s.settleCursor := rfl
@[simp] theorem State.setFrame_out (s : State) (f : Option Frame) : (s.setFrame f).out = s.out := rfl
@[simp] theorem State.setFrame_lateTicks (s : State) (f : Option Frame) : (s.setFrame f).lateTicks = s.lateTicks := rfl
@[simp] theorem State.setFrame_pending (s : State) (f : Option Frame) : (s.setFrame f).pending = s.pending := rfl

/-! ### setLatch -/

@[simp] theorem State.setLatch_op (s : State) (l : Latch) : (s.setLatch l).op = s.op := rfl
@[simp] theorem State.setLatch_pendingRemovals (s : State) (l : Latch) : (s.setLatch l).pendingRemovals = s.pendingRemovals := rfl
@[simp] theorem State.setLatch_lookups (s : State) (l : Latch) : (s.setLatch l).lookups = s.lookups := rfl
@[simp] theorem State.setLatch_partition (s : State) (l : Latch) : (s.setLatch l).partition = s.partition := rfl
@[simp] theorem State.setLatch_directory (s : State) (l : Latch) : (s.setLatch l).directory = s.directory := rfl
@[simp] theorem State.setLatch_cursorKey (s : State) (l : Latch) : (s.setLatch l).cursorKey = s.cursorKey := rfl
@[simp] theorem State.setLatch_cursorMode (s : State) (l : Latch) : (s.setLatch l).cursorMode = s.cursorMode := rfl
@[simp] theorem State.setLatch_markMode (s : State) (l : Latch) : (s.setLatch l).markMode = s.markMode := rfl
@[simp] theorem State.setLatch_text (s : State) (l : Latch) : (s.setLatch l).text = s.text := rfl
@[simp] theorem State.setLatch_freeBlocks (s : State) (l : Latch) : (s.setLatch l).freeBlocks = s.freeBlocks := rfl
@[simp] theorem State.setLatch_poolHold (s : State) (l : Latch) : (s.setLatch l).poolHold = s.poolHold := rfl
@[simp] theorem State.setLatch_accounts (s : State) (l : Latch) : (s.setLatch l).accounts = s.accounts := rfl
@[simp] theorem State.setLatch_settings (s : State) (l : Latch) : (s.setLatch l).settings = s.settings := rfl
@[simp] theorem State.setLatch_tablePtr (s : State) (l : Latch) : (s.setLatch l).tablePtr = s.tablePtr := rfl
@[simp] theorem State.setLatch_staging (s : State) (l : Latch) : (s.setLatch l).staging = s.staging := rfl
@[simp] theorem State.setLatch_lines (s : State) (l : Latch) : (s.setLatch l).lines = s.lines := rfl
@[simp] theorem State.setLatch_slots (s : State) (l : Latch) : (s.setLatch l).slots = s.slots := rfl
@[simp] theorem State.setLatch_time (s : State) (l : Latch) : (s.setLatch l).time = s.time := rfl
@[simp] theorem State.setLatch_head (s : State) (l : Latch) : (s.setLatch l).head = s.head := rfl
@[simp] theorem State.setLatch_wheel (s : State) (l : Latch) : (s.setLatch l).wheel = s.wheel := rfl
@[simp] theorem State.setLatch_visits (s : State) (l : Latch) : (s.setLatch l).visits = s.visits := rfl
@[simp] theorem State.setLatch_chans (s : State) (l : Latch) : (s.setLatch l).chans = s.chans := rfl
@[simp] theorem State.setLatch_ab (s : State) (l : Latch) : (s.setLatch l).ab = s.ab := rfl
@[simp] theorem State.setLatch_servicePtr (s : State) (l : Latch) : (s.setLatch l).servicePtr = s.servicePtr := rfl
@[simp] theorem State.setLatch_monitorOn (s : State) (l : Latch) : (s.setLatch l).monitorOn = s.monitorOn := rfl
@[simp] theorem State.setLatch_mons (s : State) (l : Latch) : (s.setLatch l).mons = s.mons := rfl
@[simp] theorem State.setLatch_settleCursor (s : State) (l : Latch) : (s.setLatch l).settleCursor = s.settleCursor := rfl
@[simp] theorem State.setLatch_out (s : State) (l : Latch) : (s.setLatch l).out = s.out := rfl
@[simp] theorem State.setLatch_lateTicks (s : State) (l : Latch) : (s.setLatch l).lateTicks = s.lateTicks := rfl
@[simp] theorem State.setLatch_pending (s : State) (l : Latch) : (s.setLatch l).pending = s.pending := rfl

/-! ### setWidth -/

@[simp] theorem State.setWidth_op (s : State) (four : Bool) : (s.setWidth four).op = s.op := rfl
@[simp] theorem State.setWidth_pendingRemovals (s : State) (four : Bool) : (s.setWidth four).pendingRemovals = s.pendingRemovals := rfl
@[simp] theorem State.setWidth_lookups (s : State) (four : Bool) : (s.setWidth four).lookups = s.lookups := rfl
@[simp] theorem State.setWidth_partition (s : State) (four : Bool) : (s.setWidth four).partition = s.partition := rfl
@[simp] theorem State.setWidth_directory (s : State) (four : Bool) : (s.setWidth four).directory = s.directory := rfl
@[simp] theorem State.setWidth_cursorKey (s : State) (four : Bool) : (s.setWidth four).cursorKey = s.cursorKey := rfl
@[simp] theorem State.setWidth_cursorMode (s : State) (four : Bool) : (s.setWidth four).cursorMode = s.cursorMode := rfl
@[simp] theorem State.setWidth_markMode (s : State) (four : Bool) : (s.setWidth four).markMode = s.markMode := rfl
@[simp] theorem State.setWidth_text (s : State) (four : Bool) : (s.setWidth four).text = s.text := rfl
@[simp] theorem State.setWidth_freeBlocks (s : State) (four : Bool) : (s.setWidth four).freeBlocks = s.freeBlocks := rfl
@[simp] theorem State.setWidth_poolHold (s : State) (four : Bool) : (s.setWidth four).poolHold = s.poolHold := rfl
@[simp] theorem State.setWidth_accounts (s : State) (four : Bool) : (s.setWidth four).accounts = s.accounts := rfl
@[simp] theorem State.setWidth_settings (s : State) (four : Bool) : (s.setWidth four).settings = s.settings := rfl
@[simp] theorem State.setWidth_tablePtr (s : State) (four : Bool) : (s.setWidth four).tablePtr = s.tablePtr := rfl
@[simp] theorem State.setWidth_staging (s : State) (four : Bool) : (s.setWidth four).staging = s.staging := rfl
@[simp] theorem State.setWidth_lines (s : State) (four : Bool) : (s.setWidth four).lines = s.lines := rfl
@[simp] theorem State.setWidth_slots (s : State) (four : Bool) : (s.setWidth four).slots = s.slots := rfl
@[simp] theorem State.setWidth_time (s : State) (four : Bool) : (s.setWidth four).time = s.time := rfl
@[simp] theorem State.setWidth_head (s : State) (four : Bool) : (s.setWidth four).head = s.head := rfl
@[simp] theorem State.setWidth_wheel (s : State) (four : Bool) : (s.setWidth four).wheel = s.wheel := rfl
@[simp] theorem State.setWidth_visits (s : State) (four : Bool) : (s.setWidth four).visits = s.visits := rfl
@[simp] theorem State.setWidth_chans (s : State) (four : Bool) : (s.setWidth four).chans = s.chans := rfl
@[simp] theorem State.setWidth_ab (s : State) (four : Bool) : (s.setWidth four).ab = s.ab := rfl
@[simp] theorem State.setWidth_servicePtr (s : State) (four : Bool) : (s.setWidth four).servicePtr = s.servicePtr := rfl
@[simp] theorem State.setWidth_monitorOn (s : State) (four : Bool) : (s.setWidth four).monitorOn = s.monitorOn := rfl
@[simp] theorem State.setWidth_mons (s : State) (four : Bool) : (s.setWidth four).mons = s.mons := rfl
@[simp] theorem State.setWidth_settleCursor (s : State) (four : Bool) : (s.setWidth four).settleCursor = s.settleCursor := rfl
@[simp] theorem State.setWidth_out (s : State) (four : Bool) : (s.setWidth four).out = s.out := rfl
@[simp] theorem State.setWidth_lateTicks (s : State) (four : Bool) : (s.setWidth four).lateTicks = s.lateTicks := rfl
@[simp] theorem State.setWidth_pending (s : State) (four : Bool) : (s.setWidth four).pending = s.pending := rfl

/-! ### drive -/

@[simp] theorem State.drive_op (s : State) (b : Byte) : (s.drive b).op = s.op := rfl
@[simp] theorem State.drive_pendingRemovals (s : State) (b : Byte) : (s.drive b).pendingRemovals = s.pendingRemovals := rfl
@[simp] theorem State.drive_lookups (s : State) (b : Byte) : (s.drive b).lookups = s.lookups := rfl
@[simp] theorem State.drive_partition (s : State) (b : Byte) : (s.drive b).partition = s.partition := rfl
@[simp] theorem State.drive_directory (s : State) (b : Byte) : (s.drive b).directory = s.directory := rfl
@[simp] theorem State.drive_cursorKey (s : State) (b : Byte) : (s.drive b).cursorKey = s.cursorKey := rfl
@[simp] theorem State.drive_cursorMode (s : State) (b : Byte) : (s.drive b).cursorMode = s.cursorMode := rfl
@[simp] theorem State.drive_markMode (s : State) (b : Byte) : (s.drive b).markMode = s.markMode := rfl
@[simp] theorem State.drive_text (s : State) (b : Byte) : (s.drive b).text = s.text := rfl
@[simp] theorem State.drive_freeBlocks (s : State) (b : Byte) : (s.drive b).freeBlocks = s.freeBlocks := rfl
@[simp] theorem State.drive_poolHold (s : State) (b : Byte) : (s.drive b).poolHold = s.poolHold := rfl
@[simp] theorem State.drive_accounts (s : State) (b : Byte) : (s.drive b).accounts = s.accounts := rfl
@[simp] theorem State.drive_settings (s : State) (b : Byte) : (s.drive b).settings = s.settings := rfl
@[simp] theorem State.drive_tablePtr (s : State) (b : Byte) : (s.drive b).tablePtr = s.tablePtr := rfl
@[simp] theorem State.drive_staging (s : State) (b : Byte) : (s.drive b).staging = s.staging := rfl
@[simp] theorem State.drive_lines (s : State) (b : Byte) : (s.drive b).lines = s.lines := rfl
@[simp] theorem State.drive_slots (s : State) (b : Byte) : (s.drive b).slots = s.slots := rfl
@[simp] theorem State.drive_time (s : State) (b : Byte) : (s.drive b).time = s.time := rfl
@[simp] theorem State.drive_head (s : State) (b : Byte) : (s.drive b).head = s.head := rfl
@[simp] theorem State.drive_wheel (s : State) (b : Byte) : (s.drive b).wheel = s.wheel := rfl
@[simp] theorem State.drive_visits (s : State) (b : Byte) : (s.drive b).visits = s.visits := rfl
@[simp] theorem State.drive_chans (s : State) (b : Byte) : (s.drive b).chans = s.chans := rfl
@[simp] theorem State.drive_ab (s : State) (b : Byte) : (s.drive b).ab = s.ab := rfl
@[simp] theorem State.drive_servicePtr (s : State) (b : Byte) : (s.drive b).servicePtr = s.servicePtr := rfl
@[simp] theorem State.drive_monitorOn (s : State) (b : Byte) : (s.drive b).monitorOn = s.monitorOn := rfl
@[simp] theorem State.drive_mons (s : State) (b : Byte) : (s.drive b).mons = s.mons := rfl
@[simp] theorem State.drive_settleCursor (s : State) (b : Byte) : (s.drive b).settleCursor = s.settleCursor := rfl
@[simp] theorem State.drive_port (s : State) (b : Byte) : (s.drive b).port = s.port := rfl
@[simp] theorem State.drive_lateTicks (s : State) (b : Byte) : (s.drive b).lateTicks = s.lateTicks := rfl
@[simp] theorem State.drive_pending (s : State) (b : Byte) : (s.drive b).pending = s.pending := rfl

/-! ### popLookup -/

@[simp] theorem State.popLookup_op (s : State) : (s.popLookup).op = s.op := rfl
@[simp] theorem State.popLookup_pendingRemovals (s : State) : (s.popLookup).pendingRemovals = s.pendingRemovals := rfl
@[simp] theorem State.popLookup_partition (s : State) : (s.popLookup).partition = s.partition := rfl
@[simp] theorem State.popLookup_directory (s : State) : (s.popLookup).directory = s.directory := rfl
@[simp] theorem State.popLookup_cursorKey (s : State) : (s.popLookup).cursorKey = s.cursorKey := rfl
@[simp] theorem State.popLookup_cursorMode (s : State) : (s.popLookup).cursorMode = s.cursorMode := rfl
@[simp] theorem State.popLookup_markMode (s : State) : (s.popLookup).markMode = s.markMode := rfl
@[simp] theorem State.popLookup_text (s : State) : (s.popLookup).text = s.text := rfl
@[simp] theorem State.popLookup_freeBlocks (s : State) : (s.popLookup).freeBlocks = s.freeBlocks := rfl
@[simp] theorem State.popLookup_poolHold (s : State) : (s.popLookup).poolHold = s.poolHold := rfl
@[simp] theorem State.popLookup_accounts (s : State) : (s.popLookup).accounts = s.accounts := rfl
@[simp] theorem State.popLookup_settings (s : State) : (s.popLookup).settings = s.settings := rfl
@[simp] theorem State.popLookup_tablePtr (s : State) : (s.popLookup).tablePtr = s.tablePtr := rfl
@[simp] theorem State.popLookup_staging (s : State) : (s.popLookup).staging = s.staging := rfl
@[simp] theorem State.popLookup_lines (s : State) : (s.popLookup).lines = s.lines := rfl
@[simp] theorem State.popLookup_slots (s : State) : (s.popLookup).slots = s.slots := rfl
@[simp] theorem State.popLookup_time (s : State) : (s.popLookup).time = s.time := rfl
@[simp] theorem State.popLookup_head (s : State) : (s.popLookup).head = s.head := rfl
@[simp] theorem State.popLookup_wheel (s : State) : (s.popLookup).wheel = s.wheel := rfl
@[simp] theorem State.popLookup_visits (s : State) : (s.popLookup).visits = s.visits := rfl
@[simp] theorem State.popLookup_chans (s : State) : (s.popLookup).chans = s.chans := rfl
@[simp] theorem State.popLookup_ab (s : State) : (s.popLookup).ab = s.ab := rfl
@[simp] theorem State.popLookup_servicePtr (s : State) : (s.popLookup).servicePtr = s.servicePtr := rfl
@[simp] theorem State.popLookup_monitorOn (s : State) : (s.popLookup).monitorOn = s.monitorOn := rfl
@[simp] theorem State.popLookup_mons (s : State) : (s.popLookup).mons = s.mons := rfl
@[simp] theorem State.popLookup_settleCursor (s : State) : (s.popLookup).settleCursor = s.settleCursor := rfl
@[simp] theorem State.popLookup_port (s : State) : (s.popLookup).port = s.port := rfl
@[simp] theorem State.popLookup_out (s : State) : (s.popLookup).out = s.out := rfl
@[simp] theorem State.popLookup_lateTicks (s : State) : (s.popLookup).lateTicks = s.lateTicks := rfl
@[simp] theorem State.popLookup_pending (s : State) : (s.popLookup).pending = s.pending := rfl

/-! ### askLookup -/

@[simp] theorem State.askLookup_op (s : State) (u : LookupUser) : (s.askLookup u).op = s.op := rfl
@[simp] theorem State.askLookup_pendingRemovals (s : State) (u : LookupUser) : (s.askLookup u).pendingRemovals = s.pendingRemovals := rfl
@[simp] theorem State.askLookup_partition (s : State) (u : LookupUser) : (s.askLookup u).partition = s.partition := rfl
@[simp] theorem State.askLookup_directory (s : State) (u : LookupUser) : (s.askLookup u).directory = s.directory := rfl
@[simp] theorem State.askLookup_cursorKey (s : State) (u : LookupUser) : (s.askLookup u).cursorKey = s.cursorKey := rfl
@[simp] theorem State.askLookup_cursorMode (s : State) (u : LookupUser) : (s.askLookup u).cursorMode = s.cursorMode := rfl
@[simp] theorem State.askLookup_markMode (s : State) (u : LookupUser) : (s.askLookup u).markMode = s.markMode := rfl
@[simp] theorem State.askLookup_text (s : State) (u : LookupUser) : (s.askLookup u).text = s.text := rfl
@[simp] theorem State.askLookup_freeBlocks (s : State) (u : LookupUser) : (s.askLookup u).freeBlocks = s.freeBlocks := rfl
@[simp] theorem State.askLookup_poolHold (s : State) (u : LookupUser) : (s.askLookup u).poolHold = s.poolHold := rfl
@[simp] theorem State.askLookup_accounts (s : State) (u : LookupUser) : (s.askLookup u).accounts = s.accounts := rfl
@[simp] theorem State.askLookup_settings (s : State) (u : LookupUser) : (s.askLookup u).settings = s.settings := rfl
@[simp] theorem State.askLookup_tablePtr (s : State) (u : LookupUser) : (s.askLookup u).tablePtr = s.tablePtr := rfl
@[simp] theorem State.askLookup_staging (s : State) (u : LookupUser) : (s.askLookup u).staging = s.staging := rfl
@[simp] theorem State.askLookup_lines (s : State) (u : LookupUser) : (s.askLookup u).lines = s.lines := rfl
@[simp] theorem State.askLookup_slots (s : State) (u : LookupUser) : (s.askLookup u).slots = s.slots := rfl
@[simp] theorem State.askLookup_time (s : State) (u : LookupUser) : (s.askLookup u).time = s.time := rfl
@[simp] theorem State.askLookup_head (s : State) (u : LookupUser) : (s.askLookup u).head = s.head := rfl
@[simp] theorem State.askLookup_wheel (s : State) (u : LookupUser) : (s.askLookup u).wheel = s.wheel := rfl
@[simp] theorem State.askLookup_visits (s : State) (u : LookupUser) : (s.askLookup u).visits = s.visits := rfl
@[simp] theorem State.askLookup_chans (s : State) (u : LookupUser) : (s.askLookup u).chans = s.chans := rfl
@[simp] theorem State.askLookup_ab (s : State) (u : LookupUser) : (s.askLookup u).ab = s.ab := rfl
@[simp] theorem State.askLookup_servicePtr (s : State) (u : LookupUser) : (s.askLookup u).servicePtr = s.servicePtr := rfl
@[simp] theorem State.askLookup_monitorOn (s : State) (u : LookupUser) : (s.askLookup u).monitorOn = s.monitorOn := rfl
@[simp] theorem State.askLookup_mons (s : State) (u : LookupUser) : (s.askLookup u).mons = s.mons := rfl
@[simp] theorem State.askLookup_settleCursor (s : State) (u : LookupUser) : (s.askLookup u).settleCursor = s.settleCursor := rfl
@[simp] theorem State.askLookup_port (s : State) (u : LookupUser) : (s.askLookup u).port = s.port := rfl
@[simp] theorem State.askLookup_out (s : State) (u : LookupUser) : (s.askLookup u).out = s.out := rfl
@[simp] theorem State.askLookup_lateTicks (s : State) (u : LookupUser) : (s.askLookup u).lateTicks = s.lateTicks := rfl
@[simp] theorem State.askLookup_pending (s : State) (u : LookupUser) : (s.askLookup u).pending = s.pending := rfl

/-! ### dropLookup -/

@[simp] theorem State.dropLookup_op (s : State) (p : LookupUser → Bool) : (s.dropLookup p).op = s.op := rfl
@[simp] theorem State.dropLookup_pendingRemovals (s : State) (p : LookupUser → Bool) : (s.dropLookup p).pendingRemovals = s.pendingRemovals := rfl
@[simp] theorem State.dropLookup_partition (s : State) (p : LookupUser → Bool) : (s.dropLookup p).partition = s.partition := rfl
@[simp] theorem State.dropLookup_directory (s : State) (p : LookupUser → Bool) : (s.dropLookup p).directory = s.directory := rfl
@[simp] theorem State.dropLookup_cursorKey (s : State) (p : LookupUser → Bool) : (s.dropLookup p).cursorKey = s.cursorKey := rfl
@[simp] theorem State.dropLookup_cursorMode (s : State) (p : LookupUser → Bool) : (s.dropLookup p).cursorMode = s.cursorMode := rfl
@[simp] theorem State.dropLookup_markMode (s : State) (p : LookupUser → Bool) : (s.dropLookup p).markMode = s.markMode := rfl
@[simp] theorem State.dropLookup_text (s : State) (p : LookupUser → Bool) : (s.dropLookup p).text = s.text := rfl
@[simp] theorem State.dropLookup_freeBlocks (s : State) (p : LookupUser → Bool) : (s.dropLookup p).freeBlocks = s.freeBlocks := rfl
@[simp] theorem State.dropLookup_poolHold (s : State) (p : LookupUser → Bool) : (s.dropLookup p).poolHold = s.poolHold := rfl
@[simp] theorem State.dropLookup_accounts (s : State) (p : LookupUser → Bool) : (s.dropLookup p).accounts = s.accounts := rfl
@[simp] theorem State.dropLookup_settings (s : State) (p : LookupUser → Bool) : (s.dropLookup p).settings = s.settings := rfl
@[simp] theorem State.dropLookup_tablePtr (s : State) (p : LookupUser → Bool) : (s.dropLookup p).tablePtr = s.tablePtr := rfl
@[simp] theorem State.dropLookup_staging (s : State) (p : LookupUser → Bool) : (s.dropLookup p).staging = s.staging := rfl
@[simp] theorem State.dropLookup_lines (s : State) (p : LookupUser → Bool) : (s.dropLookup p).lines = s.lines := rfl
@[simp] theorem State.dropLookup_slots (s : State) (p : LookupUser → Bool) : (s.dropLookup p).slots = s.slots := rfl
@[simp] theorem State.dropLookup_time (s : State) (p : LookupUser → Bool) : (s.dropLookup p).time = s.time := rfl
@[simp] theorem State.dropLookup_head (s : State) (p : LookupUser → Bool) : (s.dropLookup p).head = s.head := rfl
@[simp] theorem State.dropLookup_wheel (s : State) (p : LookupUser → Bool) : (s.dropLookup p).wheel = s.wheel := rfl
@[simp] theorem State.dropLookup_visits (s : State) (p : LookupUser → Bool) : (s.dropLookup p).visits = s.visits := rfl
@[simp] theorem State.dropLookup_chans (s : State) (p : LookupUser → Bool) : (s.dropLookup p).chans = s.chans := rfl
@[simp] theorem State.dropLookup_ab (s : State) (p : LookupUser → Bool) : (s.dropLookup p).ab = s.ab := rfl
@[simp] theorem State.dropLookup_servicePtr (s : State) (p : LookupUser → Bool) : (s.dropLookup p).servicePtr = s.servicePtr := rfl
@[simp] theorem State.dropLookup_monitorOn (s : State) (p : LookupUser → Bool) : (s.dropLookup p).monitorOn = s.monitorOn := rfl
@[simp] theorem State.dropLookup_mons (s : State) (p : LookupUser → Bool) : (s.dropLookup p).mons = s.mons := rfl
@[simp] theorem State.dropLookup_settleCursor (s : State) (p : LookupUser → Bool) : (s.dropLookup p).settleCursor = s.settleCursor := rfl
@[simp] theorem State.dropLookup_port (s : State) (p : LookupUser → Bool) : (s.dropLookup p).port = s.port := rfl
@[simp] theorem State.dropLookup_out (s : State) (p : LookupUser → Bool) : (s.dropLookup p).out = s.out := rfl
@[simp] theorem State.dropLookup_lateTicks (s : State) (p : LookupUser → Bool) : (s.dropLookup p).lateTicks = s.lateTicks := rfl
@[simp] theorem State.dropLookup_pending (s : State) (p : LookupUser → Bool) : (s.dropLookup p).pending = s.pending := rfl

/-! ### updateRecord -/

@[simp] theorem State.updateRecord_op (s : State) (a : Nat) (f : Subscriber → Subscriber) : (s.updateRecord a f).op = s.op := rfl
@[simp] theorem State.updateRecord_pendingRemovals (s : State) (a : Nat) (f : Subscriber → Subscriber) : (s.updateRecord a f).pendingRemovals = s.pendingRemovals := rfl
@[simp] theorem State.updateRecord_lookups (s : State) (a : Nat) (f : Subscriber → Subscriber) : (s.updateRecord a f).lookups = s.lookups := rfl
@[simp] theorem State.updateRecord_partition (s : State) (a : Nat) (f : Subscriber → Subscriber) : (s.updateRecord a f).partition = s.partition := rfl
@[simp] theorem State.updateRecord_cursorKey (s : State) (a : Nat) (f : Subscriber → Subscriber) : (s.updateRecord a f).cursorKey = s.cursorKey := rfl
@[simp] theorem State.updateRecord_cursorMode (s : State) (a : Nat) (f : Subscriber → Subscriber) : (s.updateRecord a f).cursorMode = s.cursorMode := rfl
@[simp] theorem State.updateRecord_markMode (s : State) (a : Nat) (f : Subscriber → Subscriber) : (s.updateRecord a f).markMode = s.markMode := rfl
@[simp] theorem State.updateRecord_text (s : State) (a : Nat) (f : Subscriber → Subscriber) : (s.updateRecord a f).text = s.text := rfl
@[simp] theorem State.updateRecord_freeBlocks (s : State) (a : Nat) (f : Subscriber → Subscriber) : (s.updateRecord a f).freeBlocks = s.freeBlocks := rfl
@[simp] theorem State.updateRecord_poolHold (s : State) (a : Nat) (f : Subscriber → Subscriber) : (s.updateRecord a f).poolHold = s.poolHold := rfl
@[simp] theorem State.updateRecord_accounts (s : State) (a : Nat) (f : Subscriber → Subscriber) : (s.updateRecord a f).accounts = s.accounts := rfl
@[simp] theorem State.updateRecord_settings (s : State) (a : Nat) (f : Subscriber → Subscriber) : (s.updateRecord a f).settings = s.settings := rfl
@[simp] theorem State.updateRecord_tablePtr (s : State) (a : Nat) (f : Subscriber → Subscriber) : (s.updateRecord a f).tablePtr = s.tablePtr := rfl
@[simp] theorem State.updateRecord_staging (s : State) (a : Nat) (f : Subscriber → Subscriber) : (s.updateRecord a f).staging = s.staging := rfl
@[simp] theorem State.updateRecord_lines (s : State) (a : Nat) (f : Subscriber → Subscriber) : (s.updateRecord a f).lines = s.lines := rfl
@[simp] theorem State.updateRecord_slots (s : State) (a : Nat) (f : Subscriber → Subscriber) : (s.updateRecord a f).slots = s.slots := rfl
@[simp] theorem State.updateRecord_time (s : State) (a : Nat) (f : Subscriber → Subscriber) : (s.updateRecord a f).time = s.time := rfl
@[simp] theorem State.updateRecord_head (s : State) (a : Nat) (f : Subscriber → Subscriber) : (s.updateRecord a f).head = s.head := rfl
@[simp] theorem State.updateRecord_wheel (s : State) (a : Nat) (f : Subscriber → Subscriber) : (s.updateRecord a f).wheel = s.wheel := rfl
@[simp] theorem State.updateRecord_visits (s : State) (a : Nat) (f : Subscriber → Subscriber) : (s.updateRecord a f).visits = s.visits := rfl
@[simp] theorem State.updateRecord_chans (s : State) (a : Nat) (f : Subscriber → Subscriber) : (s.updateRecord a f).chans = s.chans := rfl
@[simp] theorem State.updateRecord_ab (s : State) (a : Nat) (f : Subscriber → Subscriber) : (s.updateRecord a f).ab = s.ab := rfl
@[simp] theorem State.updateRecord_servicePtr (s : State) (a : Nat) (f : Subscriber → Subscriber) : (s.updateRecord a f).servicePtr = s.servicePtr := rfl
@[simp] theorem State.updateRecord_monitorOn (s : State) (a : Nat) (f : Subscriber → Subscriber) : (s.updateRecord a f).monitorOn = s.monitorOn := rfl
@[simp] theorem State.updateRecord_mons (s : State) (a : Nat) (f : Subscriber → Subscriber) : (s.updateRecord a f).mons = s.mons := rfl
@[simp] theorem State.updateRecord_settleCursor (s : State) (a : Nat) (f : Subscriber → Subscriber) : (s.updateRecord a f).settleCursor = s.settleCursor := rfl
@[simp] theorem State.updateRecord_port (s : State) (a : Nat) (f : Subscriber → Subscriber) : (s.updateRecord a f).port = s.port := rfl
@[simp] theorem State.updateRecord_out (s : State) (a : Nat) (f : Subscriber → Subscriber) : (s.updateRecord a f).out = s.out := rfl
@[simp] theorem State.updateRecord_lateTicks (s : State) (a : Nat) (f : Subscriber → Subscriber) : (s.updateRecord a f).lateTicks = s.lateTicks := rfl
@[simp] theorem State.updateRecord_pending (s : State) (a : Nat) (f : Subscriber → Subscriber) : (s.updateRecord a f).pending = s.pending := rfl

/-! ### hostWrite -/

@[simp] theorem State.hostWrite_op (s : State) (a : Nat) (f : Subscriber → Subscriber) : (s.hostWrite a f).op = s.op := rfl
@[simp] theorem State.hostWrite_pendingRemovals (s : State) (a : Nat) (f : Subscriber → Subscriber) : (s.hostWrite a f).pendingRemovals = s.pendingRemovals := rfl
@[simp] theorem State.hostWrite_lookups (s : State) (a : Nat) (f : Subscriber → Subscriber) : (s.hostWrite a f).lookups = s.lookups := rfl
@[simp] theorem State.hostWrite_partition (s : State) (a : Nat) (f : Subscriber → Subscriber) : (s.hostWrite a f).partition = s.partition := rfl
@[simp] theorem State.hostWrite_cursorKey (s : State) (a : Nat) (f : Subscriber → Subscriber) : (s.hostWrite a f).cursorKey = s.cursorKey := rfl
@[simp] theorem State.hostWrite_cursorMode (s : State) (a : Nat) (f : Subscriber → Subscriber) : (s.hostWrite a f).cursorMode = s.cursorMode := rfl
@[simp] theorem State.hostWrite_markMode (s : State) (a : Nat) (f : Subscriber → Subscriber) : (s.hostWrite a f).markMode = s.markMode := rfl
@[simp] theorem State.hostWrite_text (s : State) (a : Nat) (f : Subscriber → Subscriber) : (s.hostWrite a f).text = s.text := rfl
@[simp] theorem State.hostWrite_freeBlocks (s : State) (a : Nat) (f : Subscriber → Subscriber) : (s.hostWrite a f).freeBlocks = s.freeBlocks := rfl
@[simp] theorem State.hostWrite_poolHold (s : State) (a : Nat) (f : Subscriber → Subscriber) : (s.hostWrite a f).poolHold = s.poolHold := rfl
@[simp] theorem State.hostWrite_accounts (s : State) (a : Nat) (f : Subscriber → Subscriber) : (s.hostWrite a f).accounts = s.accounts := rfl
@[simp] theorem State.hostWrite_settings (s : State) (a : Nat) (f : Subscriber → Subscriber) : (s.hostWrite a f).settings = s.settings := rfl
@[simp] theorem State.hostWrite_tablePtr (s : State) (a : Nat) (f : Subscriber → Subscriber) : (s.hostWrite a f).tablePtr = s.tablePtr := rfl
@[simp] theorem State.hostWrite_staging (s : State) (a : Nat) (f : Subscriber → Subscriber) : (s.hostWrite a f).staging = s.staging := rfl
@[simp] theorem State.hostWrite_lines (s : State) (a : Nat) (f : Subscriber → Subscriber) : (s.hostWrite a f).lines = s.lines := rfl
@[simp] theorem State.hostWrite_slots (s : State) (a : Nat) (f : Subscriber → Subscriber) : (s.hostWrite a f).slots = s.slots := rfl
@[simp] theorem State.hostWrite_time (s : State) (a : Nat) (f : Subscriber → Subscriber) : (s.hostWrite a f).time = s.time := rfl
@[simp] theorem State.hostWrite_head (s : State) (a : Nat) (f : Subscriber → Subscriber) : (s.hostWrite a f).head = s.head := rfl
@[simp] theorem State.hostWrite_wheel (s : State) (a : Nat) (f : Subscriber → Subscriber) : (s.hostWrite a f).wheel = s.wheel := rfl
@[simp] theorem State.hostWrite_visits (s : State) (a : Nat) (f : Subscriber → Subscriber) : (s.hostWrite a f).visits = s.visits := rfl
@[simp] theorem State.hostWrite_chans (s : State) (a : Nat) (f : Subscriber → Subscriber) : (s.hostWrite a f).chans = s.chans := rfl
@[simp] theorem State.hostWrite_ab (s : State) (a : Nat) (f : Subscriber → Subscriber) : (s.hostWrite a f).ab = s.ab := rfl
@[simp] theorem State.hostWrite_servicePtr (s : State) (a : Nat) (f : Subscriber → Subscriber) : (s.hostWrite a f).servicePtr = s.servicePtr := rfl
@[simp] theorem State.hostWrite_monitorOn (s : State) (a : Nat) (f : Subscriber → Subscriber) : (s.hostWrite a f).monitorOn = s.monitorOn := rfl
@[simp] theorem State.hostWrite_mons (s : State) (a : Nat) (f : Subscriber → Subscriber) : (s.hostWrite a f).mons = s.mons := rfl
@[simp] theorem State.hostWrite_settleCursor (s : State) (a : Nat) (f : Subscriber → Subscriber) : (s.hostWrite a f).settleCursor = s.settleCursor := rfl
@[simp] theorem State.hostWrite_port (s : State) (a : Nat) (f : Subscriber → Subscriber) : (s.hostWrite a f).port = s.port := rfl
@[simp] theorem State.hostWrite_out (s : State) (a : Nat) (f : Subscriber → Subscriber) : (s.hostWrite a f).out = s.out := rfl
@[simp] theorem State.hostWrite_lateTicks (s : State) (a : Nat) (f : Subscriber → Subscriber) : (s.hostWrite a f).lateTicks = s.lateTicks := rfl
@[simp] theorem State.hostWrite_pending (s : State) (a : Nat) (f : Subscriber → Subscriber) : (s.hostWrite a f).pending = s.pending := rfl

/-! ### raiseRefs -/

@[simp] theorem State.raiseRefs_op (s : State) (i : Nat) : (s.raiseRefs i).op = s.op := rfl
@[simp] theorem State.raiseRefs_pendingRemovals (s : State) (i : Nat) : (s.raiseRefs i).pendingRemovals = s.pendingRemovals := rfl
@[simp] theorem State.raiseRefs_lookups (s : State) (i : Nat) : (s.raiseRefs i).lookups = s.lookups := rfl
@[simp] theorem State.raiseRefs_partition (s : State) (i : Nat) : (s.raiseRefs i).partition = s.partition := rfl
@[simp] theorem State.raiseRefs_directory (s : State) (i : Nat) : (s.raiseRefs i).directory = s.directory := rfl
@[simp] theorem State.raiseRefs_cursorKey (s : State) (i : Nat) : (s.raiseRefs i).cursorKey = s.cursorKey := rfl
@[simp] theorem State.raiseRefs_cursorMode (s : State) (i : Nat) : (s.raiseRefs i).cursorMode = s.cursorMode := rfl
@[simp] theorem State.raiseRefs_markMode (s : State) (i : Nat) : (s.raiseRefs i).markMode = s.markMode := rfl
@[simp] theorem State.raiseRefs_text (s : State) (i : Nat) : (s.raiseRefs i).text = s.text := rfl
@[simp] theorem State.raiseRefs_freeBlocks (s : State) (i : Nat) : (s.raiseRefs i).freeBlocks = s.freeBlocks := rfl
@[simp] theorem State.raiseRefs_poolHold (s : State) (i : Nat) : (s.raiseRefs i).poolHold = s.poolHold := rfl
@[simp] theorem State.raiseRefs_settings (s : State) (i : Nat) : (s.raiseRefs i).settings = s.settings := rfl
@[simp] theorem State.raiseRefs_tablePtr (s : State) (i : Nat) : (s.raiseRefs i).tablePtr = s.tablePtr := rfl
@[simp] theorem State.raiseRefs_staging (s : State) (i : Nat) : (s.raiseRefs i).staging = s.staging := rfl
@[simp] theorem State.raiseRefs_lines (s : State) (i : Nat) : (s.raiseRefs i).lines = s.lines := rfl
@[simp] theorem State.raiseRefs_slots (s : State) (i : Nat) : (s.raiseRefs i).slots = s.slots := rfl
@[simp] theorem State.raiseRefs_time (s : State) (i : Nat) : (s.raiseRefs i).time = s.time := rfl
@[simp] theorem State.raiseRefs_head (s : State) (i : Nat) : (s.raiseRefs i).head = s.head := rfl
@[simp] theorem State.raiseRefs_wheel (s : State) (i : Nat) : (s.raiseRefs i).wheel = s.wheel := rfl
@[simp] theorem State.raiseRefs_visits (s : State) (i : Nat) : (s.raiseRefs i).visits = s.visits := rfl
@[simp] theorem State.raiseRefs_chans (s : State) (i : Nat) : (s.raiseRefs i).chans = s.chans := rfl
@[simp] theorem State.raiseRefs_ab (s : State) (i : Nat) : (s.raiseRefs i).ab = s.ab := rfl
@[simp] theorem State.raiseRefs_servicePtr (s : State) (i : Nat) : (s.raiseRefs i).servicePtr = s.servicePtr := rfl
@[simp] theorem State.raiseRefs_monitorOn (s : State) (i : Nat) : (s.raiseRefs i).monitorOn = s.monitorOn := rfl
@[simp] theorem State.raiseRefs_mons (s : State) (i : Nat) : (s.raiseRefs i).mons = s.mons := rfl
@[simp] theorem State.raiseRefs_settleCursor (s : State) (i : Nat) : (s.raiseRefs i).settleCursor = s.settleCursor := rfl
@[simp] theorem State.raiseRefs_port (s : State) (i : Nat) : (s.raiseRefs i).port = s.port := rfl
@[simp] theorem State.raiseRefs_out (s : State) (i : Nat) : (s.raiseRefs i).out = s.out := rfl
@[simp] theorem State.raiseRefs_lateTicks (s : State) (i : Nat) : (s.raiseRefs i).lateTicks = s.lateTicks := rfl
@[simp] theorem State.raiseRefs_pending (s : State) (i : Nat) : (s.raiseRefs i).pending = s.pending := rfl

/-! ### lowerRefs -/

@[simp] theorem State.lowerRefs_op (s : State) (i : Nat) : (s.lowerRefs i).op = s.op := rfl
@[simp] theorem State.lowerRefs_pendingRemovals (s : State) (i : Nat) : (s.lowerRefs i).pendingRemovals = s.pendingRemovals := rfl
@[simp] theorem State.lowerRefs_lookups (s : State) (i : Nat) : (s.lowerRefs i).lookups = s.lookups := rfl
@[simp] theorem State.lowerRefs_partition (s : State) (i : Nat) : (s.lowerRefs i).partition = s.partition := rfl
@[simp] theorem State.lowerRefs_directory (s : State) (i : Nat) : (s.lowerRefs i).directory = s.directory := rfl
@[simp] theorem State.lowerRefs_cursorKey (s : State) (i : Nat) : (s.lowerRefs i).cursorKey = s.cursorKey := rfl
@[simp] theorem State.lowerRefs_cursorMode (s : State) (i : Nat) : (s.lowerRefs i).cursorMode = s.cursorMode := rfl
@[simp] theorem State.lowerRefs_markMode (s : State) (i : Nat) : (s.lowerRefs i).markMode = s.markMode := rfl
@[simp] theorem State.lowerRefs_text (s : State) (i : Nat) : (s.lowerRefs i).text = s.text := rfl
@[simp] theorem State.lowerRefs_freeBlocks (s : State) (i : Nat) : (s.lowerRefs i).freeBlocks = s.freeBlocks := rfl
@[simp] theorem State.lowerRefs_poolHold (s : State) (i : Nat) : (s.lowerRefs i).poolHold = s.poolHold := rfl
@[simp] theorem State.lowerRefs_settings (s : State) (i : Nat) : (s.lowerRefs i).settings = s.settings := rfl
@[simp] theorem State.lowerRefs_tablePtr (s : State) (i : Nat) : (s.lowerRefs i).tablePtr = s.tablePtr := rfl
@[simp] theorem State.lowerRefs_staging (s : State) (i : Nat) : (s.lowerRefs i).staging = s.staging := rfl
@[simp] theorem State.lowerRefs_lines (s : State) (i : Nat) : (s.lowerRefs i).lines = s.lines := rfl
@[simp] theorem State.lowerRefs_slots (s : State) (i : Nat) : (s.lowerRefs i).slots = s.slots := rfl
@[simp] theorem State.lowerRefs_time (s : State) (i : Nat) : (s.lowerRefs i).time = s.time := rfl
@[simp] theorem State.lowerRefs_head (s : State) (i : Nat) : (s.lowerRefs i).head = s.head := rfl
@[simp] theorem State.lowerRefs_wheel (s : State) (i : Nat) : (s.lowerRefs i).wheel = s.wheel := rfl
@[simp] theorem State.lowerRefs_visits (s : State) (i : Nat) : (s.lowerRefs i).visits = s.visits := rfl
@[simp] theorem State.lowerRefs_chans (s : State) (i : Nat) : (s.lowerRefs i).chans = s.chans := rfl
@[simp] theorem State.lowerRefs_ab (s : State) (i : Nat) : (s.lowerRefs i).ab = s.ab := rfl
@[simp] theorem State.lowerRefs_servicePtr (s : State) (i : Nat) : (s.lowerRefs i).servicePtr = s.servicePtr := rfl
@[simp] theorem State.lowerRefs_monitorOn (s : State) (i : Nat) : (s.lowerRefs i).monitorOn = s.monitorOn := rfl
@[simp] theorem State.lowerRefs_mons (s : State) (i : Nat) : (s.lowerRefs i).mons = s.mons := rfl
@[simp] theorem State.lowerRefs_settleCursor (s : State) (i : Nat) : (s.lowerRefs i).settleCursor = s.settleCursor := rfl
@[simp] theorem State.lowerRefs_port (s : State) (i : Nat) : (s.lowerRefs i).port = s.port := rfl
@[simp] theorem State.lowerRefs_out (s : State) (i : Nat) : (s.lowerRefs i).out = s.out := rfl
@[simp] theorem State.lowerRefs_lateTicks (s : State) (i : Nat) : (s.lowerRefs i).lateTicks = s.lateTicks := rfl
@[simp] theorem State.lowerRefs_pending (s : State) (i : Nat) : (s.lowerRefs i).pending = s.pending := rfl

/-! ### unbindLines -/

@[simp] theorem State.unbindLines_op (s : State) (t : Tag) : (s.unbindLines t).op = s.op := rfl
@[simp] theorem State.unbindLines_pendingRemovals (s : State) (t : Tag) : (s.unbindLines t).pendingRemovals = s.pendingRemovals := rfl
@[simp] theorem State.unbindLines_lookups (s : State) (t : Tag) : (s.unbindLines t).lookups = s.lookups := rfl
@[simp] theorem State.unbindLines_partition (s : State) (t : Tag) : (s.unbindLines t).partition = s.partition := rfl
@[simp] theorem State.unbindLines_directory (s : State) (t : Tag) : (s.unbindLines t).directory = s.directory := rfl
@[simp] theorem State.unbindLines_cursorKey (s : State) (t : Tag) : (s.unbindLines t).cursorKey = s.cursorKey := rfl
@[simp] theorem State.unbindLines_cursorMode (s : State) (t : Tag) : (s.unbindLines t).cursorMode = s.cursorMode := rfl
@[simp] theorem State.unbindLines_markMode (s : State) (t : Tag) : (s.unbindLines t).markMode = s.markMode := rfl
@[simp] theorem State.unbindLines_text (s : State) (t : Tag) : (s.unbindLines t).text = s.text := rfl
@[simp] theorem State.unbindLines_freeBlocks (s : State) (t : Tag) : (s.unbindLines t).freeBlocks = s.freeBlocks := rfl
@[simp] theorem State.unbindLines_poolHold (s : State) (t : Tag) : (s.unbindLines t).poolHold = s.poolHold := rfl
@[simp] theorem State.unbindLines_accounts (s : State) (t : Tag) : (s.unbindLines t).accounts = s.accounts := rfl
@[simp] theorem State.unbindLines_settings (s : State) (t : Tag) : (s.unbindLines t).settings = s.settings := rfl
@[simp] theorem State.unbindLines_tablePtr (s : State) (t : Tag) : (s.unbindLines t).tablePtr = s.tablePtr := rfl
@[simp] theorem State.unbindLines_staging (s : State) (t : Tag) : (s.unbindLines t).staging = s.staging := rfl
@[simp] theorem State.unbindLines_slots (s : State) (t : Tag) : (s.unbindLines t).slots = s.slots := rfl
@[simp] theorem State.unbindLines_time (s : State) (t : Tag) : (s.unbindLines t).time = s.time := rfl
@[simp] theorem State.unbindLines_head (s : State) (t : Tag) : (s.unbindLines t).head = s.head := rfl
@[simp] theorem State.unbindLines_wheel (s : State) (t : Tag) : (s.unbindLines t).wheel = s.wheel := rfl
@[simp] theorem State.unbindLines_visits (s : State) (t : Tag) : (s.unbindLines t).visits = s.visits := rfl
@[simp] theorem State.unbindLines_chans (s : State) (t : Tag) : (s.unbindLines t).chans = s.chans := rfl
@[simp] theorem State.unbindLines_ab (s : State) (t : Tag) : (s.unbindLines t).ab = s.ab := rfl
@[simp] theorem State.unbindLines_servicePtr (s : State) (t : Tag) : (s.unbindLines t).servicePtr = s.servicePtr := rfl
@[simp] theorem State.unbindLines_monitorOn (s : State) (t : Tag) : (s.unbindLines t).monitorOn = s.monitorOn := rfl
@[simp] theorem State.unbindLines_mons (s : State) (t : Tag) : (s.unbindLines t).mons = s.mons := rfl
@[simp] theorem State.unbindLines_settleCursor (s : State) (t : Tag) : (s.unbindLines t).settleCursor = s.settleCursor := rfl
@[simp] theorem State.unbindLines_port (s : State) (t : Tag) : (s.unbindLines t).port = s.port := rfl
@[simp] theorem State.unbindLines_out (s : State) (t : Tag) : (s.unbindLines t).out = s.out := rfl
@[simp] theorem State.unbindLines_lateTicks (s : State) (t : Tag) : (s.unbindLines t).lateTicks = s.lateTicks := rfl
@[simp] theorem State.unbindLines_pending (s : State) (t : Tag) : (s.unbindLines t).pending = s.pending := rfl

/-! ### leaveBand -/

@[simp] theorem State.leaveBand_op (s : State) (t : Tag) (c : Chan) : (s.leaveBand t c).op = s.op := rfl
@[simp] theorem State.leaveBand_pendingRemovals (s : State) (t : Tag) (c : Chan) : (s.leaveBand t c).pendingRemovals = s.pendingRemovals := rfl
@[simp] theorem State.leaveBand_lookups (s : State) (t : Tag) (c : Chan) : (s.leaveBand t c).lookups = s.lookups := rfl
@[simp] theorem State.leaveBand_partition (s : State) (t : Tag) (c : Chan) : (s.leaveBand t c).partition = s.partition := rfl
@[simp] theorem State.leaveBand_directory (s : State) (t : Tag) (c : Chan) : (s.leaveBand t c).directory = s.directory := rfl
@[simp] theorem State.leaveBand_cursorKey (s : State) (t : Tag) (c : Chan) : (s.leaveBand t c).cursorKey = s.cursorKey := rfl
@[simp] theorem State.leaveBand_cursorMode (s : State) (t : Tag) (c : Chan) : (s.leaveBand t c).cursorMode = s.cursorMode := rfl
@[simp] theorem State.leaveBand_markMode (s : State) (t : Tag) (c : Chan) : (s.leaveBand t c).markMode = s.markMode := rfl
@[simp] theorem State.leaveBand_text (s : State) (t : Tag) (c : Chan) : (s.leaveBand t c).text = s.text := rfl
@[simp] theorem State.leaveBand_freeBlocks (s : State) (t : Tag) (c : Chan) : (s.leaveBand t c).freeBlocks = s.freeBlocks := rfl
@[simp] theorem State.leaveBand_poolHold (s : State) (t : Tag) (c : Chan) : (s.leaveBand t c).poolHold = s.poolHold := rfl
@[simp] theorem State.leaveBand_accounts (s : State) (t : Tag) (c : Chan) : (s.leaveBand t c).accounts = s.accounts := rfl
@[simp] theorem State.leaveBand_settings (s : State) (t : Tag) (c : Chan) : (s.leaveBand t c).settings = s.settings := rfl
@[simp] theorem State.leaveBand_tablePtr (s : State) (t : Tag) (c : Chan) : (s.leaveBand t c).tablePtr = s.tablePtr := rfl
@[simp] theorem State.leaveBand_staging (s : State) (t : Tag) (c : Chan) : (s.leaveBand t c).staging = s.staging := rfl
@[simp] theorem State.leaveBand_lines (s : State) (t : Tag) (c : Chan) : (s.leaveBand t c).lines = s.lines := rfl
@[simp] theorem State.leaveBand_slots (s : State) (t : Tag) (c : Chan) : (s.leaveBand t c).slots = s.slots := rfl
@[simp] theorem State.leaveBand_time (s : State) (t : Tag) (c : Chan) : (s.leaveBand t c).time = s.time := rfl
@[simp] theorem State.leaveBand_head (s : State) (t : Tag) (c : Chan) : (s.leaveBand t c).head = s.head := rfl
@[simp] theorem State.leaveBand_wheel (s : State) (t : Tag) (c : Chan) : (s.leaveBand t c).wheel = s.wheel := rfl
@[simp] theorem State.leaveBand_visits (s : State) (t : Tag) (c : Chan) : (s.leaveBand t c).visits = s.visits := rfl
@[simp] theorem State.leaveBand_ab (s : State) (t : Tag) (c : Chan) : (s.leaveBand t c).ab = s.ab := rfl
@[simp] theorem State.leaveBand_servicePtr (s : State) (t : Tag) (c : Chan) : (s.leaveBand t c).servicePtr = s.servicePtr := rfl
@[simp] theorem State.leaveBand_monitorOn (s : State) (t : Tag) (c : Chan) : (s.leaveBand t c).monitorOn = s.monitorOn := rfl
@[simp] theorem State.leaveBand_mons (s : State) (t : Tag) (c : Chan) : (s.leaveBand t c).mons = s.mons := rfl
@[simp] theorem State.leaveBand_settleCursor (s : State) (t : Tag) (c : Chan) : (s.leaveBand t c).settleCursor = s.settleCursor := rfl
@[simp] theorem State.leaveBand_port (s : State) (t : Tag) (c : Chan) : (s.leaveBand t c).port = s.port := rfl
@[simp] theorem State.leaveBand_out (s : State) (t : Tag) (c : Chan) : (s.leaveBand t c).out = s.out := rfl
@[simp] theorem State.leaveBand_lateTicks (s : State) (t : Tag) (c : Chan) : (s.leaveBand t c).lateTicks = s.lateTicks := rfl
@[simp] theorem State.leaveBand_pending (s : State) (t : Tag) (c : Chan) : (s.leaveBand t c).pending = s.pending := rfl

/-! ### unlist -/

@[simp] theorem State.unlist_op (s : State) (c : Chan) (t : Tag) : (s.unlist c t).op = s.op := rfl
@[simp] theorem State.unlist_pendingRemovals (s : State) (c : Chan) (t : Tag) : (s.unlist c t).pendingRemovals = s.pendingRemovals := rfl
@[simp] theorem State.unlist_lookups (s : State) (c : Chan) (t : Tag) : (s.unlist c t).lookups = s.lookups := rfl
@[simp] theorem State.unlist_partition (s : State) (c : Chan) (t : Tag) : (s.unlist c t).partition = s.partition := rfl
@[simp] theorem State.unlist_directory (s : State) (c : Chan) (t : Tag) : (s.unlist c t).directory = s.directory := rfl
@[simp] theorem State.unlist_cursorKey (s : State) (c : Chan) (t : Tag) : (s.unlist c t).cursorKey = s.cursorKey := rfl
@[simp] theorem State.unlist_cursorMode (s : State) (c : Chan) (t : Tag) : (s.unlist c t).cursorMode = s.cursorMode := rfl
@[simp] theorem State.unlist_markMode (s : State) (c : Chan) (t : Tag) : (s.unlist c t).markMode = s.markMode := rfl
@[simp] theorem State.unlist_text (s : State) (c : Chan) (t : Tag) : (s.unlist c t).text = s.text := rfl
@[simp] theorem State.unlist_freeBlocks (s : State) (c : Chan) (t : Tag) : (s.unlist c t).freeBlocks = s.freeBlocks := rfl
@[simp] theorem State.unlist_poolHold (s : State) (c : Chan) (t : Tag) : (s.unlist c t).poolHold = s.poolHold := rfl
@[simp] theorem State.unlist_accounts (s : State) (c : Chan) (t : Tag) : (s.unlist c t).accounts = s.accounts := rfl
@[simp] theorem State.unlist_settings (s : State) (c : Chan) (t : Tag) : (s.unlist c t).settings = s.settings := rfl
@[simp] theorem State.unlist_tablePtr (s : State) (c : Chan) (t : Tag) : (s.unlist c t).tablePtr = s.tablePtr := rfl
@[simp] theorem State.unlist_staging (s : State) (c : Chan) (t : Tag) : (s.unlist c t).staging = s.staging := rfl
@[simp] theorem State.unlist_lines (s : State) (c : Chan) (t : Tag) : (s.unlist c t).lines = s.lines := rfl
@[simp] theorem State.unlist_slots (s : State) (c : Chan) (t : Tag) : (s.unlist c t).slots = s.slots := rfl
@[simp] theorem State.unlist_time (s : State) (c : Chan) (t : Tag) : (s.unlist c t).time = s.time := rfl
@[simp] theorem State.unlist_head (s : State) (c : Chan) (t : Tag) : (s.unlist c t).head = s.head := rfl
@[simp] theorem State.unlist_wheel (s : State) (c : Chan) (t : Tag) : (s.unlist c t).wheel = s.wheel := rfl
@[simp] theorem State.unlist_visits (s : State) (c : Chan) (t : Tag) : (s.unlist c t).visits = s.visits := rfl
@[simp] theorem State.unlist_ab (s : State) (c : Chan) (t : Tag) : (s.unlist c t).ab = s.ab := rfl
@[simp] theorem State.unlist_servicePtr (s : State) (c : Chan) (t : Tag) : (s.unlist c t).servicePtr = s.servicePtr := rfl
@[simp] theorem State.unlist_monitorOn (s : State) (c : Chan) (t : Tag) : (s.unlist c t).monitorOn = s.monitorOn := rfl
@[simp] theorem State.unlist_mons (s : State) (c : Chan) (t : Tag) : (s.unlist c t).mons = s.mons := rfl
@[simp] theorem State.unlist_settleCursor (s : State) (c : Chan) (t : Tag) : (s.unlist c t).settleCursor = s.settleCursor := rfl
@[simp] theorem State.unlist_port (s : State) (c : Chan) (t : Tag) : (s.unlist c t).port = s.port := rfl
@[simp] theorem State.unlist_out (s : State) (c : Chan) (t : Tag) : (s.unlist c t).out = s.out := rfl
@[simp] theorem State.unlist_lateTicks (s : State) (c : Chan) (t : Tag) : (s.unlist c t).lateTicks = s.lateTicks := rfl
@[simp] theorem State.unlist_pending (s : State) (c : Chan) (t : Tag) : (s.unlist c t).pending = s.pending := rfl

/-! ### countStray -/

@[simp] theorem State.countStray_op (s : State) (c : Chan) : (s.countStray c).op = s.op := rfl
@[simp] theorem State.countStray_pendingRemovals (s : State) (c : Chan) : (s.countStray c).pendingRemovals = s.pendingRemovals := rfl
@[simp] theorem State.countStray_lookups (s : State) (c : Chan) : (s.countStray c).lookups = s.lookups := rfl
@[simp] theorem State.countStray_partition (s : State) (c : Chan) : (s.countStray c).partition = s.partition := rfl
@[simp] theorem State.countStray_directory (s : State) (c : Chan) : (s.countStray c).directory = s.directory := rfl
@[simp] theorem State.countStray_cursorKey (s : State) (c : Chan) : (s.countStray c).cursorKey = s.cursorKey := rfl
@[simp] theorem State.countStray_cursorMode (s : State) (c : Chan) : (s.countStray c).cursorMode = s.cursorMode := rfl
@[simp] theorem State.countStray_markMode (s : State) (c : Chan) : (s.countStray c).markMode = s.markMode := rfl
@[simp] theorem State.countStray_text (s : State) (c : Chan) : (s.countStray c).text = s.text := rfl
@[simp] theorem State.countStray_freeBlocks (s : State) (c : Chan) : (s.countStray c).freeBlocks = s.freeBlocks := rfl
@[simp] theorem State.countStray_poolHold (s : State) (c : Chan) : (s.countStray c).poolHold = s.poolHold := rfl
@[simp] theorem State.countStray_accounts (s : State) (c : Chan) : (s.countStray c).accounts = s.accounts := rfl
@[simp] theorem State.countStray_settings (s : State) (c : Chan) : (s.countStray c).settings = s.settings := rfl
@[simp] theorem State.countStray_tablePtr (s : State) (c : Chan) : (s.countStray c).tablePtr = s.tablePtr := rfl
@[simp] theorem State.countStray_staging (s : State) (c : Chan) : (s.countStray c).staging = s.staging := rfl
@[simp] theorem State.countStray_lines (s : State) (c : Chan) : (s.countStray c).lines = s.lines := rfl
@[simp] theorem State.countStray_slots (s : State) (c : Chan) : (s.countStray c).slots = s.slots := rfl
@[simp] theorem State.countStray_time (s : State) (c : Chan) : (s.countStray c).time = s.time := rfl
@[simp] theorem State.countStray_head (s : State) (c : Chan) : (s.countStray c).head = s.head := rfl
@[simp] theorem State.countStray_wheel (s : State) (c : Chan) : (s.countStray c).wheel = s.wheel := rfl
@[simp] theorem State.countStray_visits (s : State) (c : Chan) : (s.countStray c).visits = s.visits := rfl
@[simp] theorem State.countStray_ab (s : State) (c : Chan) : (s.countStray c).ab = s.ab := rfl
@[simp] theorem State.countStray_servicePtr (s : State) (c : Chan) : (s.countStray c).servicePtr = s.servicePtr := rfl
@[simp] theorem State.countStray_monitorOn (s : State) (c : Chan) : (s.countStray c).monitorOn = s.monitorOn := rfl
@[simp] theorem State.countStray_mons (s : State) (c : Chan) : (s.countStray c).mons = s.mons := rfl
@[simp] theorem State.countStray_settleCursor (s : State) (c : Chan) : (s.countStray c).settleCursor = s.settleCursor := rfl
@[simp] theorem State.countStray_port (s : State) (c : Chan) : (s.countStray c).port = s.port := rfl
@[simp] theorem State.countStray_out (s : State) (c : Chan) : (s.countStray c).out = s.out := rfl
@[simp] theorem State.countStray_lateTicks (s : State) (c : Chan) : (s.countStray c).lateTicks = s.lateTicks := rfl
@[simp] theorem State.countStray_pending (s : State) (c : Chan) : (s.countStray c).pending = s.pending := rfl

/-! ### setChanState -/

@[simp] theorem State.setChanState_op (s : State) (c : Chan) (st : ChanState) : (s.setChanState c st).op = s.op := rfl
@[simp] theorem State.setChanState_pendingRemovals (s : State) (c : Chan) (st : ChanState) : (s.setChanState c st).pendingRemovals = s.pendingRemovals := rfl
@[simp] theorem State.setChanState_lookups (s : State) (c : Chan) (st : ChanState) : (s.setChanState c st).lookups = s.lookups := rfl
@[simp] theorem State.setChanState_partition (s : State) (c : Chan) (st : ChanState) : (s.setChanState c st).partition = s.partition := rfl
@[simp] theorem State.setChanState_directory (s : State) (c : Chan) (st : ChanState) : (s.setChanState c st).directory = s.directory := rfl
@[simp] theorem State.setChanState_cursorKey (s : State) (c : Chan) (st : ChanState) : (s.setChanState c st).cursorKey = s.cursorKey := rfl
@[simp] theorem State.setChanState_cursorMode (s : State) (c : Chan) (st : ChanState) : (s.setChanState c st).cursorMode = s.cursorMode := rfl
@[simp] theorem State.setChanState_markMode (s : State) (c : Chan) (st : ChanState) : (s.setChanState c st).markMode = s.markMode := rfl
@[simp] theorem State.setChanState_text (s : State) (c : Chan) (st : ChanState) : (s.setChanState c st).text = s.text := rfl
@[simp] theorem State.setChanState_freeBlocks (s : State) (c : Chan) (st : ChanState) : (s.setChanState c st).freeBlocks = s.freeBlocks := rfl
@[simp] theorem State.setChanState_poolHold (s : State) (c : Chan) (st : ChanState) : (s.setChanState c st).poolHold = s.poolHold := rfl
@[simp] theorem State.setChanState_accounts (s : State) (c : Chan) (st : ChanState) : (s.setChanState c st).accounts = s.accounts := rfl
@[simp] theorem State.setChanState_settings (s : State) (c : Chan) (st : ChanState) : (s.setChanState c st).settings = s.settings := rfl
@[simp] theorem State.setChanState_tablePtr (s : State) (c : Chan) (st : ChanState) : (s.setChanState c st).tablePtr = s.tablePtr := rfl
@[simp] theorem State.setChanState_staging (s : State) (c : Chan) (st : ChanState) : (s.setChanState c st).staging = s.staging := rfl
@[simp] theorem State.setChanState_lines (s : State) (c : Chan) (st : ChanState) : (s.setChanState c st).lines = s.lines := rfl
@[simp] theorem State.setChanState_slots (s : State) (c : Chan) (st : ChanState) : (s.setChanState c st).slots = s.slots := rfl
@[simp] theorem State.setChanState_time (s : State) (c : Chan) (st : ChanState) : (s.setChanState c st).time = s.time := rfl
@[simp] theorem State.setChanState_head (s : State) (c : Chan) (st : ChanState) : (s.setChanState c st).head = s.head := rfl
@[simp] theorem State.setChanState_wheel (s : State) (c : Chan) (st : ChanState) : (s.setChanState c st).wheel = s.wheel := rfl
@[simp] theorem State.setChanState_visits (s : State) (c : Chan) (st : ChanState) : (s.setChanState c st).visits = s.visits := rfl
@[simp] theorem State.setChanState_ab (s : State) (c : Chan) (st : ChanState) : (s.setChanState c st).ab = s.ab := rfl
@[simp] theorem State.setChanState_servicePtr (s : State) (c : Chan) (st : ChanState) : (s.setChanState c st).servicePtr = s.servicePtr := rfl
@[simp] theorem State.setChanState_monitorOn (s : State) (c : Chan) (st : ChanState) : (s.setChanState c st).monitorOn = s.monitorOn := rfl
@[simp] theorem State.setChanState_mons (s : State) (c : Chan) (st : ChanState) : (s.setChanState c st).mons = s.mons := rfl
@[simp] theorem State.setChanState_settleCursor (s : State) (c : Chan) (st : ChanState) : (s.setChanState c st).settleCursor = s.settleCursor := rfl
@[simp] theorem State.setChanState_port (s : State) (c : Chan) (st : ChanState) : (s.setChanState c st).port = s.port := rfl
@[simp] theorem State.setChanState_out (s : State) (c : Chan) (st : ChanState) : (s.setChanState c st).out = s.out := rfl
@[simp] theorem State.setChanState_lateTicks (s : State) (c : Chan) (st : ChanState) : (s.setChanState c st).lateTicks = s.lateTicks := rfl
@[simp] theorem State.setChanState_pending (s : State) (c : Chan) (st : ChanState) : (s.setChanState c st).pending = s.pending := rfl

/-! ### freeSlot -/

@[simp] theorem State.freeSlot_op (s : State) (i : Nat) (k : Ending) : (s.freeSlot i k).op = s.op := rfl
@[simp] theorem State.freeSlot_pendingRemovals (s : State) (i : Nat) (k : Ending) : (s.freeSlot i k).pendingRemovals = s.pendingRemovals := rfl
@[simp] theorem State.freeSlot_lookups (s : State) (i : Nat) (k : Ending) : (s.freeSlot i k).lookups = s.lookups := rfl
@[simp] theorem State.freeSlot_partition (s : State) (i : Nat) (k : Ending) : (s.freeSlot i k).partition = s.partition := rfl
@[simp] theorem State.freeSlot_directory (s : State) (i : Nat) (k : Ending) : (s.freeSlot i k).directory = s.directory := rfl
@[simp] theorem State.freeSlot_cursorKey (s : State) (i : Nat) (k : Ending) : (s.freeSlot i k).cursorKey = s.cursorKey := rfl
@[simp] theorem State.freeSlot_cursorMode (s : State) (i : Nat) (k : Ending) : (s.freeSlot i k).cursorMode = s.cursorMode := rfl
@[simp] theorem State.freeSlot_markMode (s : State) (i : Nat) (k : Ending) : (s.freeSlot i k).markMode = s.markMode := rfl
@[simp] theorem State.freeSlot_text (s : State) (i : Nat) (k : Ending) : (s.freeSlot i k).text = s.text := rfl
@[simp] theorem State.freeSlot_freeBlocks (s : State) (i : Nat) (k : Ending) : (s.freeSlot i k).freeBlocks = s.freeBlocks := rfl
@[simp] theorem State.freeSlot_poolHold (s : State) (i : Nat) (k : Ending) : (s.freeSlot i k).poolHold = s.poolHold := rfl
@[simp] theorem State.freeSlot_accounts (s : State) (i : Nat) (k : Ending) : (s.freeSlot i k).accounts = s.accounts := rfl
@[simp] theorem State.freeSlot_settings (s : State) (i : Nat) (k : Ending) : (s.freeSlot i k).settings = s.settings := rfl
@[simp] theorem State.freeSlot_tablePtr (s : State) (i : Nat) (k : Ending) : (s.freeSlot i k).tablePtr = s.tablePtr := rfl
@[simp] theorem State.freeSlot_staging (s : State) (i : Nat) (k : Ending) : (s.freeSlot i k).staging = s.staging := rfl
@[simp] theorem State.freeSlot_lines (s : State) (i : Nat) (k : Ending) : (s.freeSlot i k).lines = s.lines := rfl
@[simp] theorem State.freeSlot_time (s : State) (i : Nat) (k : Ending) : (s.freeSlot i k).time = s.time := rfl
@[simp] theorem State.freeSlot_head (s : State) (i : Nat) (k : Ending) : (s.freeSlot i k).head = s.head := rfl
@[simp] theorem State.freeSlot_wheel (s : State) (i : Nat) (k : Ending) : (s.freeSlot i k).wheel = s.wheel := rfl
@[simp] theorem State.freeSlot_visits (s : State) (i : Nat) (k : Ending) : (s.freeSlot i k).visits = s.visits := rfl
@[simp] theorem State.freeSlot_chans (s : State) (i : Nat) (k : Ending) : (s.freeSlot i k).chans = s.chans := rfl
@[simp] theorem State.freeSlot_ab (s : State) (i : Nat) (k : Ending) : (s.freeSlot i k).ab = s.ab := rfl
@[simp] theorem State.freeSlot_servicePtr (s : State) (i : Nat) (k : Ending) : (s.freeSlot i k).servicePtr = s.servicePtr := rfl
@[simp] theorem State.freeSlot_monitorOn (s : State) (i : Nat) (k : Ending) : (s.freeSlot i k).monitorOn = s.monitorOn := rfl
@[simp] theorem State.freeSlot_mons (s : State) (i : Nat) (k : Ending) : (s.freeSlot i k).mons = s.mons := rfl
@[simp] theorem State.freeSlot_settleCursor (s : State) (i : Nat) (k : Ending) : (s.freeSlot i k).settleCursor = s.settleCursor := rfl
@[simp] theorem State.freeSlot_port (s : State) (i : Nat) (k : Ending) : (s.freeSlot i k).port = s.port := rfl
@[simp] theorem State.freeSlot_out (s : State) (i : Nat) (k : Ending) : (s.freeSlot i k).out = s.out := rfl
@[simp] theorem State.freeSlot_lateTicks (s : State) (i : Nat) (k : Ending) : (s.freeSlot i k).lateTicks = s.lateTicks := rfl
@[simp] theorem State.freeSlot_pending (s : State) (i : Nat) (k : Ending) : (s.freeSlot i k).pending = s.pending := rfl

/-! ### setEntry -/

@[simp] theorem State.setEntry_op (s : State) (i : Nat) (e : Entry) : (s.setEntry i e).op = s.op := rfl
@[simp] theorem State.setEntry_pendingRemovals (s : State) (i : Nat) (e : Entry) : (s.setEntry i e).pendingRemovals = s.pendingRemovals := rfl
@[simp] theorem State.setEntry_lookups (s : State) (i : Nat) (e : Entry) : (s.setEntry i e).lookups = s.lookups := rfl
@[simp] theorem State.setEntry_partition (s : State) (i : Nat) (e : Entry) : (s.setEntry i e).partition = s.partition := rfl
@[simp] theorem State.setEntry_directory (s : State) (i : Nat) (e : Entry) : (s.setEntry i e).directory = s.directory := rfl
@[simp] theorem State.setEntry_cursorKey (s : State) (i : Nat) (e : Entry) : (s.setEntry i e).cursorKey = s.cursorKey := rfl
@[simp] theorem State.setEntry_cursorMode (s : State) (i : Nat) (e : Entry) : (s.setEntry i e).cursorMode = s.cursorMode := rfl
@[simp] theorem State.setEntry_markMode (s : State) (i : Nat) (e : Entry) : (s.setEntry i e).markMode = s.markMode := rfl
@[simp] theorem State.setEntry_text (s : State) (i : Nat) (e : Entry) : (s.setEntry i e).text = s.text := rfl
@[simp] theorem State.setEntry_freeBlocks (s : State) (i : Nat) (e : Entry) : (s.setEntry i e).freeBlocks = s.freeBlocks := rfl
@[simp] theorem State.setEntry_poolHold (s : State) (i : Nat) (e : Entry) : (s.setEntry i e).poolHold = s.poolHold := rfl
@[simp] theorem State.setEntry_accounts (s : State) (i : Nat) (e : Entry) : (s.setEntry i e).accounts = s.accounts := rfl
@[simp] theorem State.setEntry_settings (s : State) (i : Nat) (e : Entry) : (s.setEntry i e).settings = s.settings := rfl
@[simp] theorem State.setEntry_tablePtr (s : State) (i : Nat) (e : Entry) : (s.setEntry i e).tablePtr = s.tablePtr := rfl
@[simp] theorem State.setEntry_staging (s : State) (i : Nat) (e : Entry) : (s.setEntry i e).staging = s.staging := rfl
@[simp] theorem State.setEntry_lines (s : State) (i : Nat) (e : Entry) : (s.setEntry i e).lines = s.lines := rfl
@[simp] theorem State.setEntry_time (s : State) (i : Nat) (e : Entry) : (s.setEntry i e).time = s.time := rfl
@[simp] theorem State.setEntry_head (s : State) (i : Nat) (e : Entry) : (s.setEntry i e).head = s.head := rfl
@[simp] theorem State.setEntry_wheel (s : State) (i : Nat) (e : Entry) : (s.setEntry i e).wheel = s.wheel := rfl
@[simp] theorem State.setEntry_visits (s : State) (i : Nat) (e : Entry) : (s.setEntry i e).visits = s.visits := rfl
@[simp] theorem State.setEntry_chans (s : State) (i : Nat) (e : Entry) : (s.setEntry i e).chans = s.chans := rfl
@[simp] theorem State.setEntry_ab (s : State) (i : Nat) (e : Entry) : (s.setEntry i e).ab = s.ab := rfl
@[simp] theorem State.setEntry_servicePtr (s : State) (i : Nat) (e : Entry) : (s.setEntry i e).servicePtr = s.servicePtr := rfl
@[simp] theorem State.setEntry_monitorOn (s : State) (i : Nat) (e : Entry) : (s.setEntry i e).monitorOn = s.monitorOn := rfl
@[simp] theorem State.setEntry_mons (s : State) (i : Nat) (e : Entry) : (s.setEntry i e).mons = s.mons := rfl
@[simp] theorem State.setEntry_settleCursor (s : State) (i : Nat) (e : Entry) : (s.setEntry i e).settleCursor = s.settleCursor := rfl
@[simp] theorem State.setEntry_port (s : State) (i : Nat) (e : Entry) : (s.setEntry i e).port = s.port := rfl
@[simp] theorem State.setEntry_out (s : State) (i : Nat) (e : Entry) : (s.setEntry i e).out = s.out := rfl
@[simp] theorem State.setEntry_lateTicks (s : State) (i : Nat) (e : Entry) : (s.setEntry i e).lateTicks = s.lateTicks := rfl
@[simp] theorem State.setEntry_pending (s : State) (i : Nat) (e : Entry) : (s.setEntry i e).pending = s.pending := rfl

/-! ### allocate -/

@[simp] theorem State.allocate_op (s : State) (i : Nat) (e : Entry) : (s.allocate i e).op = s.op := rfl
@[simp] theorem State.allocate_pendingRemovals (s : State) (i : Nat) (e : Entry) : (s.allocate i e).pendingRemovals = s.pendingRemovals := rfl
@[simp] theorem State.allocate_lookups (s : State) (i : Nat) (e : Entry) : (s.allocate i e).lookups = s.lookups := rfl
@[simp] theorem State.allocate_partition (s : State) (i : Nat) (e : Entry) : (s.allocate i e).partition = s.partition := rfl
@[simp] theorem State.allocate_directory (s : State) (i : Nat) (e : Entry) : (s.allocate i e).directory = s.directory := rfl
@[simp] theorem State.allocate_cursorKey (s : State) (i : Nat) (e : Entry) : (s.allocate i e).cursorKey = s.cursorKey := rfl
@[simp] theorem State.allocate_cursorMode (s : State) (i : Nat) (e : Entry) : (s.allocate i e).cursorMode = s.cursorMode := rfl
@[simp] theorem State.allocate_markMode (s : State) (i : Nat) (e : Entry) : (s.allocate i e).markMode = s.markMode := rfl
@[simp] theorem State.allocate_text (s : State) (i : Nat) (e : Entry) : (s.allocate i e).text = s.text := rfl
@[simp] theorem State.allocate_freeBlocks (s : State) (i : Nat) (e : Entry) : (s.allocate i e).freeBlocks = s.freeBlocks := rfl
@[simp] theorem State.allocate_poolHold (s : State) (i : Nat) (e : Entry) : (s.allocate i e).poolHold = s.poolHold := rfl
@[simp] theorem State.allocate_accounts (s : State) (i : Nat) (e : Entry) : (s.allocate i e).accounts = s.accounts := rfl
@[simp] theorem State.allocate_settings (s : State) (i : Nat) (e : Entry) : (s.allocate i e).settings = s.settings := rfl
@[simp] theorem State.allocate_tablePtr (s : State) (i : Nat) (e : Entry) : (s.allocate i e).tablePtr = s.tablePtr := rfl
@[simp] theorem State.allocate_staging (s : State) (i : Nat) (e : Entry) : (s.allocate i e).staging = s.staging := rfl
@[simp] theorem State.allocate_lines (s : State) (i : Nat) (e : Entry) : (s.allocate i e).lines = s.lines := rfl
@[simp] theorem State.allocate_time (s : State) (i : Nat) (e : Entry) : (s.allocate i e).time = s.time := rfl
@[simp] theorem State.allocate_head (s : State) (i : Nat) (e : Entry) : (s.allocate i e).head = s.head := rfl
@[simp] theorem State.allocate_wheel (s : State) (i : Nat) (e : Entry) : (s.allocate i e).wheel = s.wheel := rfl
@[simp] theorem State.allocate_visits (s : State) (i : Nat) (e : Entry) : (s.allocate i e).visits = s.visits := rfl
@[simp] theorem State.allocate_chans (s : State) (i : Nat) (e : Entry) : (s.allocate i e).chans = s.chans := rfl
@[simp] theorem State.allocate_ab (s : State) (i : Nat) (e : Entry) : (s.allocate i e).ab = s.ab := rfl
@[simp] theorem State.allocate_servicePtr (s : State) (i : Nat) (e : Entry) : (s.allocate i e).servicePtr = s.servicePtr := rfl
@[simp] theorem State.allocate_monitorOn (s : State) (i : Nat) (e : Entry) : (s.allocate i e).monitorOn = s.monitorOn := rfl
@[simp] theorem State.allocate_mons (s : State) (i : Nat) (e : Entry) : (s.allocate i e).mons = s.mons := rfl
@[simp] theorem State.allocate_settleCursor (s : State) (i : Nat) (e : Entry) : (s.allocate i e).settleCursor = s.settleCursor := rfl
@[simp] theorem State.allocate_port (s : State) (i : Nat) (e : Entry) : (s.allocate i e).port = s.port := rfl
@[simp] theorem State.allocate_out (s : State) (i : Nat) (e : Entry) : (s.allocate i e).out = s.out := rfl
@[simp] theorem State.allocate_lateTicks (s : State) (i : Nat) (e : Entry) : (s.allocate i e).lateTicks = s.lateTicks := rfl
@[simp] theorem State.allocate_pending (s : State) (i : Nat) (e : Entry) : (s.allocate i e).pending = s.pending := rfl

/-! ### askLaunch -/

@[simp] theorem State.askLaunch_op (s : State) (t : Tag) : (s.askLaunch t).op = s.op := rfl
@[simp] theorem State.askLaunch_pendingRemovals (s : State) (t : Tag) : (s.askLaunch t).pendingRemovals = s.pendingRemovals := rfl
@[simp] theorem State.askLaunch_partition (s : State) (t : Tag) : (s.askLaunch t).partition = s.partition := rfl
@[simp] theorem State.askLaunch_directory (s : State) (t : Tag) : (s.askLaunch t).directory = s.directory := rfl
@[simp] theorem State.askLaunch_cursorKey (s : State) (t : Tag) : (s.askLaunch t).cursorKey = s.cursorKey := rfl
@[simp] theorem State.askLaunch_cursorMode (s : State) (t : Tag) : (s.askLaunch t).cursorMode = s.cursorMode := rfl
@[simp] theorem State.askLaunch_markMode (s : State) (t : Tag) : (s.askLaunch t).markMode = s.markMode := rfl
@[simp] theorem State.askLaunch_text (s : State) (t : Tag) : (s.askLaunch t).text = s.text := rfl
@[simp] theorem State.askLaunch_freeBlocks (s : State) (t : Tag) : (s.askLaunch t).freeBlocks = s.freeBlocks := rfl
@[simp] theorem State.askLaunch_poolHold (s : State) (t : Tag) : (s.askLaunch t).poolHold = s.poolHold := rfl
@[simp] theorem State.askLaunch_accounts (s : State) (t : Tag) : (s.askLaunch t).accounts = s.accounts := rfl
@[simp] theorem State.askLaunch_settings (s : State) (t : Tag) : (s.askLaunch t).settings = s.settings := rfl
@[simp] theorem State.askLaunch_tablePtr (s : State) (t : Tag) : (s.askLaunch t).tablePtr = s.tablePtr := rfl
@[simp] theorem State.askLaunch_staging (s : State) (t : Tag) : (s.askLaunch t).staging = s.staging := rfl
@[simp] theorem State.askLaunch_lines (s : State) (t : Tag) : (s.askLaunch t).lines = s.lines := rfl
@[simp] theorem State.askLaunch_slots (s : State) (t : Tag) : (s.askLaunch t).slots = s.slots := rfl
@[simp] theorem State.askLaunch_time (s : State) (t : Tag) : (s.askLaunch t).time = s.time := rfl
@[simp] theorem State.askLaunch_head (s : State) (t : Tag) : (s.askLaunch t).head = s.head := rfl
@[simp] theorem State.askLaunch_wheel (s : State) (t : Tag) : (s.askLaunch t).wheel = s.wheel := rfl
@[simp] theorem State.askLaunch_visits (s : State) (t : Tag) : (s.askLaunch t).visits = s.visits := rfl
@[simp] theorem State.askLaunch_chans (s : State) (t : Tag) : (s.askLaunch t).chans = s.chans := rfl
@[simp] theorem State.askLaunch_ab (s : State) (t : Tag) : (s.askLaunch t).ab = s.ab := rfl
@[simp] theorem State.askLaunch_servicePtr (s : State) (t : Tag) : (s.askLaunch t).servicePtr = s.servicePtr := rfl
@[simp] theorem State.askLaunch_monitorOn (s : State) (t : Tag) : (s.askLaunch t).monitorOn = s.monitorOn := rfl
@[simp] theorem State.askLaunch_mons (s : State) (t : Tag) : (s.askLaunch t).mons = s.mons := rfl
@[simp] theorem State.askLaunch_settleCursor (s : State) (t : Tag) : (s.askLaunch t).settleCursor = s.settleCursor := rfl
@[simp] theorem State.askLaunch_port (s : State) (t : Tag) : (s.askLaunch t).port = s.port := rfl
@[simp] theorem State.askLaunch_out (s : State) (t : Tag) : (s.askLaunch t).out = s.out := rfl
@[simp] theorem State.askLaunch_lateTicks (s : State) (t : Tag) : (s.askLaunch t).lateTicks = s.lateTicks := rfl
@[simp] theorem State.askLaunch_pending (s : State) (t : Tag) : (s.askLaunch t).pending = s.pending := rfl

/-! ### countAbStray -/

@[simp] theorem State.countAbStray_op (s : State) (n : LineNo) : (s.countAbStray n).op = s.op := rfl
@[simp] theorem State.countAbStray_pendingRemovals (s : State) (n : LineNo) : (s.countAbStray n).pendingRemovals = s.pendingRemovals := rfl
@[simp] theorem State.countAbStray_lookups (s : State) (n : LineNo) : (s.countAbStray n).lookups = s.lookups := rfl
@[simp] theorem State.countAbStray_partition (s : State) (n : LineNo) : (s.countAbStray n).partition = s.partition := rfl
@[simp] theorem State.countAbStray_directory (s : State) (n : LineNo) : (s.countAbStray n).directory = s.directory := rfl
@[simp] theorem State.countAbStray_cursorKey (s : State) (n : LineNo) : (s.countAbStray n).cursorKey = s.cursorKey := rfl
@[simp] theorem State.countAbStray_cursorMode (s : State) (n : LineNo) : (s.countAbStray n).cursorMode = s.cursorMode := rfl
@[simp] theorem State.countAbStray_markMode (s : State) (n : LineNo) : (s.countAbStray n).markMode = s.markMode := rfl
@[simp] theorem State.countAbStray_text (s : State) (n : LineNo) : (s.countAbStray n).text = s.text := rfl
@[simp] theorem State.countAbStray_freeBlocks (s : State) (n : LineNo) : (s.countAbStray n).freeBlocks = s.freeBlocks := rfl
@[simp] theorem State.countAbStray_poolHold (s : State) (n : LineNo) : (s.countAbStray n).poolHold = s.poolHold := rfl
@[simp] theorem State.countAbStray_accounts (s : State) (n : LineNo) : (s.countAbStray n).accounts = s.accounts := rfl
@[simp] theorem State.countAbStray_settings (s : State) (n : LineNo) : (s.countAbStray n).settings = s.settings := rfl
@[simp] theorem State.countAbStray_tablePtr (s : State) (n : LineNo) : (s.countAbStray n).tablePtr = s.tablePtr := rfl
@[simp] theorem State.countAbStray_staging (s : State) (n : LineNo) : (s.countAbStray n).staging = s.staging := rfl
@[simp] theorem State.countAbStray_lines (s : State) (n : LineNo) : (s.countAbStray n).lines = s.lines := rfl
@[simp] theorem State.countAbStray_slots (s : State) (n : LineNo) : (s.countAbStray n).slots = s.slots := rfl
@[simp] theorem State.countAbStray_time (s : State) (n : LineNo) : (s.countAbStray n).time = s.time := rfl
@[simp] theorem State.countAbStray_head (s : State) (n : LineNo) : (s.countAbStray n).head = s.head := rfl
@[simp] theorem State.countAbStray_wheel (s : State) (n : LineNo) : (s.countAbStray n).wheel = s.wheel := rfl
@[simp] theorem State.countAbStray_visits (s : State) (n : LineNo) : (s.countAbStray n).visits = s.visits := rfl
@[simp] theorem State.countAbStray_chans (s : State) (n : LineNo) : (s.countAbStray n).chans = s.chans := rfl
@[simp] theorem State.countAbStray_servicePtr (s : State) (n : LineNo) : (s.countAbStray n).servicePtr = s.servicePtr := rfl
@[simp] theorem State.countAbStray_monitorOn (s : State) (n : LineNo) : (s.countAbStray n).monitorOn = s.monitorOn := rfl
@[simp] theorem State.countAbStray_mons (s : State) (n : LineNo) : (s.countAbStray n).mons = s.mons := rfl
@[simp] theorem State.countAbStray_settleCursor (s : State) (n : LineNo) : (s.countAbStray n).settleCursor = s.settleCursor := rfl
@[simp] theorem State.countAbStray_port (s : State) (n : LineNo) : (s.countAbStray n).port = s.port := rfl
@[simp] theorem State.countAbStray_out (s : State) (n : LineNo) : (s.countAbStray n).out = s.out := rfl
@[simp] theorem State.countAbStray_lateTicks (s : State) (n : LineNo) : (s.countAbStray n).lateTicks = s.lateTicks := rfl
@[simp] theorem State.countAbStray_pending (s : State) (n : LineNo) : (s.countAbStray n).pending = s.pending := rfl

/-! ### setTickDue -/

@[simp] theorem State.setTickDue_op (s : State) (n : LineNo) (d : Bool) : (s.setTickDue n d).op = s.op := rfl
@[simp] theorem State.setTickDue_pendingRemovals (s : State) (n : LineNo) (d : Bool) : (s.setTickDue n d).pendingRemovals = s.pendingRemovals := rfl
@[simp] theorem State.setTickDue_lookups (s : State) (n : LineNo) (d : Bool) : (s.setTickDue n d).lookups = s.lookups := rfl
@[simp] theorem State.setTickDue_partition (s : State) (n : LineNo) (d : Bool) : (s.setTickDue n d).partition = s.partition := rfl
@[simp] theorem State.setTickDue_directory (s : State) (n : LineNo) (d : Bool) : (s.setTickDue n d).directory = s.directory := rfl
@[simp] theorem State.setTickDue_cursorKey (s : State) (n : LineNo) (d : Bool) : (s.setTickDue n d).cursorKey = s.cursorKey := rfl
@[simp] theorem State.setTickDue_cursorMode (s : State) (n : LineNo) (d : Bool) : (s.setTickDue n d).cursorMode = s.cursorMode := rfl
@[simp] theorem State.setTickDue_markMode (s : State) (n : LineNo) (d : Bool) : (s.setTickDue n d).markMode = s.markMode := rfl
@[simp] theorem State.setTickDue_text (s : State) (n : LineNo) (d : Bool) : (s.setTickDue n d).text = s.text := rfl
@[simp] theorem State.setTickDue_freeBlocks (s : State) (n : LineNo) (d : Bool) : (s.setTickDue n d).freeBlocks = s.freeBlocks := rfl
@[simp] theorem State.setTickDue_poolHold (s : State) (n : LineNo) (d : Bool) : (s.setTickDue n d).poolHold = s.poolHold := rfl
@[simp] theorem State.setTickDue_accounts (s : State) (n : LineNo) (d : Bool) : (s.setTickDue n d).accounts = s.accounts := rfl
@[simp] theorem State.setTickDue_settings (s : State) (n : LineNo) (d : Bool) : (s.setTickDue n d).settings = s.settings := rfl
@[simp] theorem State.setTickDue_tablePtr (s : State) (n : LineNo) (d : Bool) : (s.setTickDue n d).tablePtr = s.tablePtr := rfl
@[simp] theorem State.setTickDue_staging (s : State) (n : LineNo) (d : Bool) : (s.setTickDue n d).staging = s.staging := rfl
@[simp] theorem State.setTickDue_slots (s : State) (n : LineNo) (d : Bool) : (s.setTickDue n d).slots = s.slots := rfl
@[simp] theorem State.setTickDue_time (s : State) (n : LineNo) (d : Bool) : (s.setTickDue n d).time = s.time := rfl
@[simp] theorem State.setTickDue_head (s : State) (n : LineNo) (d : Bool) : (s.setTickDue n d).head = s.head := rfl
@[simp] theorem State.setTickDue_wheel (s : State) (n : LineNo) (d : Bool) : (s.setTickDue n d).wheel = s.wheel := rfl
@[simp] theorem State.setTickDue_visits (s : State) (n : LineNo) (d : Bool) : (s.setTickDue n d).visits = s.visits := rfl
@[simp] theorem State.setTickDue_chans (s : State) (n : LineNo) (d : Bool) : (s.setTickDue n d).chans = s.chans := rfl
@[simp] theorem State.setTickDue_ab (s : State) (n : LineNo) (d : Bool) : (s.setTickDue n d).ab = s.ab := rfl
@[simp] theorem State.setTickDue_servicePtr (s : State) (n : LineNo) (d : Bool) : (s.setTickDue n d).servicePtr = s.servicePtr := rfl
@[simp] theorem State.setTickDue_monitorOn (s : State) (n : LineNo) (d : Bool) : (s.setTickDue n d).monitorOn = s.monitorOn := rfl
@[simp] theorem State.setTickDue_mons (s : State) (n : LineNo) (d : Bool) : (s.setTickDue n d).mons = s.mons := rfl
@[simp] theorem State.setTickDue_settleCursor (s : State) (n : LineNo) (d : Bool) : (s.setTickDue n d).settleCursor = s.settleCursor := rfl
@[simp] theorem State.setTickDue_port (s : State) (n : LineNo) (d : Bool) : (s.setTickDue n d).port = s.port := rfl
@[simp] theorem State.setTickDue_out (s : State) (n : LineNo) (d : Bool) : (s.setTickDue n d).out = s.out := rfl
@[simp] theorem State.setTickDue_lateTicks (s : State) (n : LineNo) (d : Bool) : (s.setTickDue n d).lateTicks = s.lateTicks := rfl
@[simp] theorem State.setTickDue_pending (s : State) (n : LineNo) (d : Bool) : (s.setTickDue n d).pending = s.pending := rfl

/-! ### setSampleDue -/

@[simp] theorem State.setSampleDue_op (s : State) (c : Chan) (d : Bool) : (s.setSampleDue c d).op = s.op := rfl
@[simp] theorem State.setSampleDue_pendingRemovals (s : State) (c : Chan) (d : Bool) : (s.setSampleDue c d).pendingRemovals = s.pendingRemovals := rfl
@[simp] theorem State.setSampleDue_lookups (s : State) (c : Chan) (d : Bool) : (s.setSampleDue c d).lookups = s.lookups := rfl
@[simp] theorem State.setSampleDue_partition (s : State) (c : Chan) (d : Bool) : (s.setSampleDue c d).partition = s.partition := rfl
@[simp] theorem State.setSampleDue_directory (s : State) (c : Chan) (d : Bool) : (s.setSampleDue c d).directory = s.directory := rfl
@[simp] theorem State.setSampleDue_cursorKey (s : State) (c : Chan) (d : Bool) : (s.setSampleDue c d).cursorKey = s.cursorKey := rfl
@[simp] theorem State.setSampleDue_cursorMode (s : State) (c : Chan) (d : Bool) : (s.setSampleDue c d).cursorMode = s.cursorMode := rfl
@[simp] theorem State.setSampleDue_markMode (s : State) (c : Chan) (d : Bool) : (s.setSampleDue c d).markMode = s.markMode := rfl
@[simp] theorem State.setSampleDue_text (s : State) (c : Chan) (d : Bool) : (s.setSampleDue c d).text = s.text := rfl
@[simp] theorem State.setSampleDue_freeBlocks (s : State) (c : Chan) (d : Bool) : (s.setSampleDue c d).freeBlocks = s.freeBlocks := rfl
@[simp] theorem State.setSampleDue_poolHold (s : State) (c : Chan) (d : Bool) : (s.setSampleDue c d).poolHold = s.poolHold := rfl
@[simp] theorem State.setSampleDue_accounts (s : State) (c : Chan) (d : Bool) : (s.setSampleDue c d).accounts = s.accounts := rfl
@[simp] theorem State.setSampleDue_settings (s : State) (c : Chan) (d : Bool) : (s.setSampleDue c d).settings = s.settings := rfl
@[simp] theorem State.setSampleDue_tablePtr (s : State) (c : Chan) (d : Bool) : (s.setSampleDue c d).tablePtr = s.tablePtr := rfl
@[simp] theorem State.setSampleDue_staging (s : State) (c : Chan) (d : Bool) : (s.setSampleDue c d).staging = s.staging := rfl
@[simp] theorem State.setSampleDue_lines (s : State) (c : Chan) (d : Bool) : (s.setSampleDue c d).lines = s.lines := rfl
@[simp] theorem State.setSampleDue_slots (s : State) (c : Chan) (d : Bool) : (s.setSampleDue c d).slots = s.slots := rfl
@[simp] theorem State.setSampleDue_time (s : State) (c : Chan) (d : Bool) : (s.setSampleDue c d).time = s.time := rfl
@[simp] theorem State.setSampleDue_head (s : State) (c : Chan) (d : Bool) : (s.setSampleDue c d).head = s.head := rfl
@[simp] theorem State.setSampleDue_wheel (s : State) (c : Chan) (d : Bool) : (s.setSampleDue c d).wheel = s.wheel := rfl
@[simp] theorem State.setSampleDue_visits (s : State) (c : Chan) (d : Bool) : (s.setSampleDue c d).visits = s.visits := rfl
@[simp] theorem State.setSampleDue_chans (s : State) (c : Chan) (d : Bool) : (s.setSampleDue c d).chans = s.chans := rfl
@[simp] theorem State.setSampleDue_ab (s : State) (c : Chan) (d : Bool) : (s.setSampleDue c d).ab = s.ab := rfl
@[simp] theorem State.setSampleDue_servicePtr (s : State) (c : Chan) (d : Bool) : (s.setSampleDue c d).servicePtr = s.servicePtr := rfl
@[simp] theorem State.setSampleDue_monitorOn (s : State) (c : Chan) (d : Bool) : (s.setSampleDue c d).monitorOn = s.monitorOn := rfl
@[simp] theorem State.setSampleDue_settleCursor (s : State) (c : Chan) (d : Bool) : (s.setSampleDue c d).settleCursor = s.settleCursor := rfl
@[simp] theorem State.setSampleDue_port (s : State) (c : Chan) (d : Bool) : (s.setSampleDue c d).port = s.port := rfl
@[simp] theorem State.setSampleDue_out (s : State) (c : Chan) (d : Bool) : (s.setSampleDue c d).out = s.out := rfl
@[simp] theorem State.setSampleDue_lateTicks (s : State) (c : Chan) (d : Bool) : (s.setSampleDue c d).lateTicks = s.lateTicks := rfl
@[simp] theorem State.setSampleDue_pending (s : State) (c : Chan) (d : Bool) : (s.setSampleDue c d).pending = s.pending := rfl

/-! ### advanceClock -/

@[simp] theorem State.advanceClock_op (s : State) : (s.advanceClock).op = s.op := rfl
@[simp] theorem State.advanceClock_pendingRemovals (s : State) : (s.advanceClock).pendingRemovals = s.pendingRemovals := rfl
@[simp] theorem State.advanceClock_lookups (s : State) : (s.advanceClock).lookups = s.lookups := rfl
@[simp] theorem State.advanceClock_partition (s : State) : (s.advanceClock).partition = s.partition := rfl
@[simp] theorem State.advanceClock_directory (s : State) : (s.advanceClock).directory = s.directory := rfl
@[simp] theorem State.advanceClock_cursorKey (s : State) : (s.advanceClock).cursorKey = s.cursorKey := rfl
@[simp] theorem State.advanceClock_cursorMode (s : State) : (s.advanceClock).cursorMode = s.cursorMode := rfl
@[simp] theorem State.advanceClock_markMode (s : State) : (s.advanceClock).markMode = s.markMode := rfl
@[simp] theorem State.advanceClock_text (s : State) : (s.advanceClock).text = s.text := rfl
@[simp] theorem State.advanceClock_freeBlocks (s : State) : (s.advanceClock).freeBlocks = s.freeBlocks := rfl
@[simp] theorem State.advanceClock_poolHold (s : State) : (s.advanceClock).poolHold = s.poolHold := rfl
@[simp] theorem State.advanceClock_accounts (s : State) : (s.advanceClock).accounts = s.accounts := rfl
@[simp] theorem State.advanceClock_settings (s : State) : (s.advanceClock).settings = s.settings := rfl
@[simp] theorem State.advanceClock_tablePtr (s : State) : (s.advanceClock).tablePtr = s.tablePtr := rfl
@[simp] theorem State.advanceClock_staging (s : State) : (s.advanceClock).staging = s.staging := rfl
@[simp] theorem State.advanceClock_lines (s : State) : (s.advanceClock).lines = s.lines := rfl
@[simp] theorem State.advanceClock_slots (s : State) : (s.advanceClock).slots = s.slots := rfl
@[simp] theorem State.advanceClock_wheel (s : State) : (s.advanceClock).wheel = s.wheel := rfl
@[simp] theorem State.advanceClock_chans (s : State) : (s.advanceClock).chans = s.chans := rfl
@[simp] theorem State.advanceClock_ab (s : State) : (s.advanceClock).ab = s.ab := rfl
@[simp] theorem State.advanceClock_servicePtr (s : State) : (s.advanceClock).servicePtr = s.servicePtr := rfl
@[simp] theorem State.advanceClock_monitorOn (s : State) : (s.advanceClock).monitorOn = s.monitorOn := rfl
@[simp] theorem State.advanceClock_mons (s : State) : (s.advanceClock).mons = s.mons := rfl
@[simp] theorem State.advanceClock_settleCursor (s : State) : (s.advanceClock).settleCursor = s.settleCursor := rfl
@[simp] theorem State.advanceClock_port (s : State) : (s.advanceClock).port = s.port := rfl
@[simp] theorem State.advanceClock_out (s : State) : (s.advanceClock).out = s.out := rfl
@[simp] theorem State.advanceClock_lateTicks (s : State) : (s.advanceClock).lateTicks = s.lateTicks.tail := rfl
@[simp] theorem State.advanceClock_pending (s : State) : (s.advanceClock).pending = s.pending := rfl

/-! ### setOutcome -/

@[simp] theorem State.setOutcome_op (s : State) (f : Frame) (o : SubmitOutcome) : (s.setOutcome f o).op = s.op := rfl
@[simp] theorem State.setOutcome_pendingRemovals (s : State) (f : Frame) (o : SubmitOutcome) : (s.setOutcome f o).pendingRemovals = s.pendingRemovals := rfl
@[simp] theorem State.setOutcome_lookups (s : State) (f : Frame) (o : SubmitOutcome) : (s.setOutcome f o).lookups = s.lookups := rfl
@[simp] theorem State.setOutcome_partition (s : State) (f : Frame) (o : SubmitOutcome) : (s.setOutcome f o).partition = s.partition := rfl
@[simp] theorem State.setOutcome_directory (s : State) (f : Frame) (o : SubmitOutcome) : (s.setOutcome f o).directory = s.directory := rfl
@[simp] theorem State.setOutcome_cursorKey (s : State) (f : Frame) (o : SubmitOutcome) : (s.setOutcome f o).cursorKey = s.cursorKey := rfl
@[simp] theorem State.setOutcome_cursorMode (s : State) (f : Frame) (o : SubmitOutcome) : (s.setOutcome f o).cursorMode = s.cursorMode := rfl
@[simp] theorem State.setOutcome_markMode (s : State) (f : Frame) (o : SubmitOutcome) : (s.setOutcome f o).markMode = s.markMode := rfl
@[simp] theorem State.setOutcome_text (s : State) (f : Frame) (o : SubmitOutcome) : (s.setOutcome f o).text = s.text := rfl
@[simp] theorem State.setOutcome_freeBlocks (s : State) (f : Frame) (o : SubmitOutcome) : (s.setOutcome f o).freeBlocks = s.freeBlocks := rfl
@[simp] theorem State.setOutcome_poolHold (s : State) (f : Frame) (o : SubmitOutcome) : (s.setOutcome f o).poolHold = s.poolHold := rfl
@[simp] theorem State.setOutcome_accounts (s : State) (f : Frame) (o : SubmitOutcome) : (s.setOutcome f o).accounts = s.accounts := rfl
@[simp] theorem State.setOutcome_settings (s : State) (f : Frame) (o : SubmitOutcome) : (s.setOutcome f o).settings = s.settings := rfl
@[simp] theorem State.setOutcome_tablePtr (s : State) (f : Frame) (o : SubmitOutcome) : (s.setOutcome f o).tablePtr = s.tablePtr := rfl
@[simp] theorem State.setOutcome_staging (s : State) (f : Frame) (o : SubmitOutcome) : (s.setOutcome f o).staging = s.staging := rfl
@[simp] theorem State.setOutcome_lines (s : State) (f : Frame) (o : SubmitOutcome) : (s.setOutcome f o).lines = s.lines := rfl
@[simp] theorem State.setOutcome_slots (s : State) (f : Frame) (o : SubmitOutcome) : (s.setOutcome f o).slots = s.slots := rfl
@[simp] theorem State.setOutcome_time (s : State) (f : Frame) (o : SubmitOutcome) : (s.setOutcome f o).time = s.time := rfl
@[simp] theorem State.setOutcome_head (s : State) (f : Frame) (o : SubmitOutcome) : (s.setOutcome f o).head = s.head := rfl
@[simp] theorem State.setOutcome_wheel (s : State) (f : Frame) (o : SubmitOutcome) : (s.setOutcome f o).wheel = s.wheel := rfl
@[simp] theorem State.setOutcome_visits (s : State) (f : Frame) (o : SubmitOutcome) : (s.setOutcome f o).visits = s.visits := rfl
@[simp] theorem State.setOutcome_chans (s : State) (f : Frame) (o : SubmitOutcome) : (s.setOutcome f o).chans = s.chans := rfl
@[simp] theorem State.setOutcome_ab (s : State) (f : Frame) (o : SubmitOutcome) : (s.setOutcome f o).ab = s.ab := rfl
@[simp] theorem State.setOutcome_servicePtr (s : State) (f : Frame) (o : SubmitOutcome) : (s.setOutcome f o).servicePtr = s.servicePtr := rfl
@[simp] theorem State.setOutcome_monitorOn (s : State) (f : Frame) (o : SubmitOutcome) : (s.setOutcome f o).monitorOn = s.monitorOn := rfl
@[simp] theorem State.setOutcome_mons (s : State) (f : Frame) (o : SubmitOutcome) : (s.setOutcome f o).mons = s.mons := rfl
@[simp] theorem State.setOutcome_settleCursor (s : State) (f : Frame) (o : SubmitOutcome) : (s.setOutcome f o).settleCursor = s.settleCursor := rfl
@[simp] theorem State.setOutcome_out (s : State) (f : Frame) (o : SubmitOutcome) : (s.setOutcome f o).out = s.out := rfl
@[simp] theorem State.setOutcome_lateTicks (s : State) (f : Frame) (o : SubmitOutcome) : (s.setOutcome f o).lateTicks = s.lateTicks := rfl
@[simp] theorem State.setOutcome_pending (s : State) (f : Frame) (o : SubmitOutcome) : (s.setOutcome f o).pending = s.pending := rfl

/-! ### passVisit -/

@[simp] theorem State.passVisit_op (s : State) (w : Nat) : (s.passVisit w).op = s.op := rfl
@[simp] theorem State.passVisit_pendingRemovals (s : State) (w : Nat) : (s.passVisit w).pendingRemovals = s.pendingRemovals := rfl
@[simp] theorem State.passVisit_lookups (s : State) (w : Nat) : (s.passVisit w).lookups = s.lookups := rfl
@[simp] theorem State.passVisit_partition (s : State) (w : Nat) : (s.passVisit w).partition = s.partition := rfl
@[simp] theorem State.passVisit_directory (s : State) (w : Nat) : (s.passVisit w).directory = s.directory := rfl
@[simp] theorem State.passVisit_cursorKey (s : State) (w : Nat) : (s.passVisit w).cursorKey = s.cursorKey := rfl
@[simp] theorem State.passVisit_cursorMode (s : State) (w : Nat) : (s.passVisit w).cursorMode = s.cursorMode := rfl
@[simp] theorem State.passVisit_markMode (s : State) (w : Nat) : (s.passVisit w).markMode = s.markMode := rfl
@[simp] theorem State.passVisit_text (s : State) (w : Nat) : (s.passVisit w).text = s.text := rfl
@[simp] theorem State.passVisit_freeBlocks (s : State) (w : Nat) : (s.passVisit w).freeBlocks = s.freeBlocks := rfl
@[simp] theorem State.passVisit_poolHold (s : State) (w : Nat) : (s.passVisit w).poolHold = s.poolHold := rfl
@[simp] theorem State.passVisit_accounts (s : State) (w : Nat) : (s.passVisit w).accounts = s.accounts := rfl
@[simp] theorem State.passVisit_settings (s : State) (w : Nat) : (s.passVisit w).settings = s.settings := rfl
@[simp] theorem State.passVisit_tablePtr (s : State) (w : Nat) : (s.passVisit w).tablePtr = s.tablePtr := rfl
@[simp] theorem State.passVisit_staging (s : State) (w : Nat) : (s.passVisit w).staging = s.staging := rfl
@[simp] theorem State.passVisit_lines (s : State) (w : Nat) : (s.passVisit w).lines = s.lines := rfl
@[simp] theorem State.passVisit_slots (s : State) (w : Nat) : (s.passVisit w).slots = s.slots := rfl
@[simp] theorem State.passVisit_time (s : State) (w : Nat) : (s.passVisit w).time = s.time := rfl
@[simp] theorem State.passVisit_head (s : State) (w : Nat) : (s.passVisit w).head = s.head := rfl
@[simp] theorem State.passVisit_wheel (s : State) (w : Nat) : (s.passVisit w).wheel = s.wheel := rfl
@[simp] theorem State.passVisit_chans (s : State) (w : Nat) : (s.passVisit w).chans = s.chans := rfl
@[simp] theorem State.passVisit_ab (s : State) (w : Nat) : (s.passVisit w).ab = s.ab := rfl
@[simp] theorem State.passVisit_servicePtr (s : State) (w : Nat) : (s.passVisit w).servicePtr = s.servicePtr := rfl
@[simp] theorem State.passVisit_monitorOn (s : State) (w : Nat) : (s.passVisit w).monitorOn = s.monitorOn := rfl
@[simp] theorem State.passVisit_mons (s : State) (w : Nat) : (s.passVisit w).mons = s.mons := rfl
@[simp] theorem State.passVisit_settleCursor (s : State) (w : Nat) : (s.passVisit w).settleCursor = s.settleCursor := rfl
@[simp] theorem State.passVisit_port (s : State) (w : Nat) : (s.passVisit w).port = s.port := rfl
@[simp] theorem State.passVisit_out (s : State) (w : Nat) : (s.passVisit w).out = s.out := rfl
@[simp] theorem State.passVisit_lateTicks (s : State) (w : Nat) : (s.passVisit w).lateTicks = s.lateTicks := rfl
@[simp] theorem State.passVisit_pending (s : State) (w : Nat) : (s.passVisit w).pending = s.pending := rfl

/-! ### refillLine -/

@[simp] theorem State.refillLine_op (s : State) (n : LineNo) : (s.refillLine n).op = s.op := rfl
@[simp] theorem State.refillLine_pendingRemovals (s : State) (n : LineNo) : (s.refillLine n).pendingRemovals = s.pendingRemovals := rfl
@[simp] theorem State.refillLine_lookups (s : State) (n : LineNo) : (s.refillLine n).lookups = s.lookups := rfl
@[simp] theorem State.refillLine_partition (s : State) (n : LineNo) : (s.refillLine n).partition = s.partition := rfl
@[simp] theorem State.refillLine_directory (s : State) (n : LineNo) : (s.refillLine n).directory = s.directory := rfl
@[simp] theorem State.refillLine_cursorKey (s : State) (n : LineNo) : (s.refillLine n).cursorKey = s.cursorKey := rfl
@[simp] theorem State.refillLine_cursorMode (s : State) (n : LineNo) : (s.refillLine n).cursorMode = s.cursorMode := rfl
@[simp] theorem State.refillLine_markMode (s : State) (n : LineNo) : (s.refillLine n).markMode = s.markMode := rfl
@[simp] theorem State.refillLine_text (s : State) (n : LineNo) : (s.refillLine n).text = s.text := rfl
@[simp] theorem State.refillLine_freeBlocks (s : State) (n : LineNo) : (s.refillLine n).freeBlocks = s.freeBlocks := rfl
@[simp] theorem State.refillLine_poolHold (s : State) (n : LineNo) : (s.refillLine n).poolHold = s.poolHold := rfl
@[simp] theorem State.refillLine_accounts (s : State) (n : LineNo) : (s.refillLine n).accounts = s.accounts := rfl
@[simp] theorem State.refillLine_settings (s : State) (n : LineNo) : (s.refillLine n).settings = s.settings := rfl
@[simp] theorem State.refillLine_tablePtr (s : State) (n : LineNo) : (s.refillLine n).tablePtr = s.tablePtr := rfl
@[simp] theorem State.refillLine_staging (s : State) (n : LineNo) : (s.refillLine n).staging = s.staging := rfl
@[simp] theorem State.refillLine_slots (s : State) (n : LineNo) : (s.refillLine n).slots = s.slots := rfl
@[simp] theorem State.refillLine_time (s : State) (n : LineNo) : (s.refillLine n).time = s.time := rfl
@[simp] theorem State.refillLine_head (s : State) (n : LineNo) : (s.refillLine n).head = s.head := rfl
@[simp] theorem State.refillLine_wheel (s : State) (n : LineNo) : (s.refillLine n).wheel = s.wheel := rfl
@[simp] theorem State.refillLine_visits (s : State) (n : LineNo) : (s.refillLine n).visits = s.visits := rfl
@[simp] theorem State.refillLine_chans (s : State) (n : LineNo) : (s.refillLine n).chans = s.chans := rfl
@[simp] theorem State.refillLine_ab (s : State) (n : LineNo) : (s.refillLine n).ab = s.ab := rfl
@[simp] theorem State.refillLine_servicePtr (s : State) (n : LineNo) : (s.refillLine n).servicePtr = s.servicePtr := rfl
@[simp] theorem State.refillLine_monitorOn (s : State) (n : LineNo) : (s.refillLine n).monitorOn = s.monitorOn := rfl
@[simp] theorem State.refillLine_mons (s : State) (n : LineNo) : (s.refillLine n).mons = s.mons := rfl
@[simp] theorem State.refillLine_settleCursor (s : State) (n : LineNo) : (s.refillLine n).settleCursor = s.settleCursor := rfl
@[simp] theorem State.refillLine_port (s : State) (n : LineNo) : (s.refillLine n).port = s.port := rfl
@[simp] theorem State.refillLine_out (s : State) (n : LineNo) : (s.refillLine n).out = s.out := rfl
@[simp] theorem State.refillLine_lateTicks (s : State) (n : LineNo) : (s.refillLine n).lateTicks = s.lateTicks := rfl
@[simp] theorem State.refillLine_pending (s : State) (n : LineNo) : (s.refillLine n).pending = s.pending := rfl

/-! ### The field that an update writes -/

@[simp] theorem State.setPort_port (s : State) (p : Port) : (s.setPort p).port = p := rfl
@[simp] theorem State.setResult_port (s : State) (bs : List Byte) :
    (s.setResult bs).port = s.port.answered bs := rfl
@[simp] theorem State.answer_port (s : State) (c : Code) (bs : List Byte) :
    (s.answer c bs).port = s.port.answered (codeByte c :: bs) := rfl
@[simp] theorem State.clearResult_port (s : State) :
    s.clearResult.port = { s.port with result := [], readIdx := 0, ready := false } := rfl
@[simp] theorem State.setFrame_port (s : State) (f : Option Frame) :
    (s.setFrame f).port = { s.port with frame := f } := rfl
@[simp] theorem State.setLatch_port (s : State) (l : Latch) :
    (s.setLatch l).port = { s.port with latch := l } := rfl
@[simp] theorem State.raise_port (s : State) (c : Cause) :
    (s.raise c).port = { s.port with causes := s.port.causes ||| causeBit c } := rfl
@[simp] theorem State.popLookup_lookups (s : State) : s.popLookup.lookups = s.lookups.tail := rfl
@[simp] theorem State.beginOp_op (s : State) (o : Operation) : (s.beginOp o).op = some o := rfl
@[simp] theorem State.beginOp_lookups (s : State) (o : Operation) :
    (s.beginOp o).lookups = s.lookups.map (fun l => { l with held := true }) := rfl
@[simp] theorem State.askLookup_lookups (s : State) (u : LookupUser) :
    (s.askLookup u).lookups = s.lookups ++ [{ user := u, held := !s.lookupsOpen }] := rfl
@[simp] theorem State.dropLookup_lookups (s : State) (p : LookupUser → Bool) :
    (s.dropLookup p).lookups = s.lookups.filter (fun l => !p l.user) := rfl
@[simp] theorem State.updateRecord_directory (s : State) (a : Nat) (f : Subscriber → Subscriber) :
    (s.updateRecord a f).directory = s.directory.map (fun r => if r.addr = a then f r else r) := rfl

/-! ### Records by line and by channel -/

@[simp] theorem Quad.get_put {α : Type} (q : Quad α) (n : LineNo) (v : α) : (q.put n v).get n = v := by
  fin_cases n <;> rfl
@[simp] theorem Quad.get_put_ne {α : Type} (q : Quad α) {n m : LineNo} (v : α) (h : m ≠ n) :
    (q.put n v).get m = q.get m := by
  fin_cases n <;> fin_cases m <;> first | rfl | exact absurd rfl h
@[simp] theorem Quad.put_get {α : Type} (q : Quad α) (n : LineNo) : q.put n (q.get n) = q := by
  fin_cases n <;> rfl
@[simp] theorem Duo.get_put {α : Type} (d : Duo α) (c : Chan) (v : α) : (d.put c v).get c = v := by
  cases c <;> rfl
@[simp] theorem Duo.get_put_ne {α : Type} (d : Duo α) {c k : Chan} (v : α) (h : k ≠ c) :
    (d.put c v).get k = d.get k := by
  cases c <;> cases k <;> first | rfl | exact absurd rfl h

@[simp] theorem State.line_setLine (s : State) (n : LineNo) (l : Line) : (s.setLine n l).line n = l :=
  Quad.get_put ..
@[simp] theorem State.line_setLine_ne (s : State) {n m : LineNo} (l : Line) (h : m ≠ n) :
    (s.setLine n l).line m = s.line m := Quad.get_put_ne _ _ h
@[simp] theorem State.chan_setChan (s : State) (c : Chan) (v : Channel) : (s.setChan c v).chan c = v :=
  Duo.get_put ..
@[simp] theorem State.chan_setChan_ne (s : State) {c k : Chan} (v : Channel) (h : k ≠ c) :
    (s.setChan c v).chan k = s.chan k := Duo.get_put_ne _ _ h
@[simp] theorem State.mon_setMon (s : State) (c : Chan) (v : Monitor) : (s.setMon c v).mon c = v :=
  Duo.get_put ..
@[simp] theorem State.mon_setMon_ne (s : State) {c k : Chan} (v : Monitor) (h : k ≠ c) :
    (s.setMon c v).mon k = s.mon k := Duo.get_put_ne _ _ h
@[simp] theorem State.abSlot_setAbSlot (s : State) (n : LineNo) (v : AbSlot) :
    (s.setAbSlot n v).abSlot n = v := Quad.get_put ..
@[simp] theorem State.abSlot_setAbSlot_ne (s : State) {n m : LineNo} (v : AbSlot) (h : m ≠ n) :
    (s.setAbSlot n v).abSlot m = s.abSlot m := Quad.get_put_ne _ _ h

end Sys2Proof.Machine
end

