-- ==== Sys2Proof/Laws/Port.lean ====
section
/-! SUPPORT. What the shared operations of the Command Port do: the strobe, the code of a command and the
last argument byte of a command. A proof about a command cites these and unfolds the command's own
`take` only. -/

namespace Sys2Proof.Machine

theorem Port.paired_nibble_gone (p : Port) (h : p.fourBit = true) : p.paired.nibble = none := by
  simp [Port.paired, h]

@[simp] theorem Port.paired_fourBit (p : Port) : p.paired.fourBit = p.fourBit := by
  unfold Port.paired; split <;> rfl
@[simp] theorem Port.paired_frame (p : Port) : p.paired.frame = p.frame := by
  unfold Port.paired; split <;> rfl
@[simp] theorem Port.paired_result (p : Port) : p.paired.result = p.result := by
  unfold Port.paired; split <;> rfl
@[simp] theorem Port.paired_readIdx (p : Port) : p.paired.readIdx = p.readIdx := by
  unfold Port.paired; split <;> rfl
@[simp] theorem Port.paired_ready (p : Port) : p.paired.ready = p.ready := by
  unfold Port.paired; split <;> rfl
@[simp] theorem Port.paired_latch (p : Port) : p.paired.latch = p.latch := by
  unfold Port.paired; split <;> rfl
@[simp] theorem Port.paired_causes (p : Port) : p.paired.causes = p.causes := by
  unfold Port.paired; split <;> rfl
@[simp] theorem Port.paired_enables (p : Port) : p.paired.enables = p.enables := by
  unfold Port.paired; split <;> rfl

/-- R160: a strobe that completes `b` leaves no nibble pending in 4-bit mode. -/
theorem State.strobe_of_ready {s : State} {w cd : Bool} {b : Byte} (h : s.byteReady w cd b) :
    s.strobe w cd b = some (s.setPort s.port.paired) := by
  unfold State.strobe Port.paired State.setPort
  rcases h with h | h
  · simp [h]
  · by_cases hf : s.port.fourBit = true
    · simp [hf, h, highNibble]
    · simp [hf]

/-- A strobe that completes no byte is no step of a command row. -/
theorem State.strobe_of_not_ready {s : State} {w cd : Bool} {b : Byte} (h : ¬ s.byteReady w cd b) :
    s.strobe w cd b = none := by
  unfold State.strobe
  simp only [not_or, highNibble] at h
  obtain ⟨h1, h2⟩ := h
  simp [h1, h2]

theorem State.abandon_of_none {s : State} (h : s.port.frame = none) : s.abandon = s := by
  simp [State.abandon, h]

theorem State.dropFrame_frame_none {s : State} (h : s.port.frame = none) : s.dropFrame = s := by
  simp [State.dropFrame, h]

@[simp] theorem State.newFrame_setPort_paired (s : State) (c : Cmd) :
    (s.setPort s.port.paired).newFrame c = s.newFrame c := by
  simp [State.newFrame]

/-- R161 to R165: the code of a command without arguments, with busy clear and no frame open. -/
theorem portCode_taken {s : State} {c : Cmd} {take : Frame → State → State}
    (ha : cmdArgs c = 0) (hr : s.byteReady true false (cmdCode c)) (hb : s.op = none)
    (hf : s.port.frame = none) :
    portCode c take s =
      ((s.setPort s.port.paired).openFrame c false).takeFrame take (s.newFrame c) := by
  simp only [portCode, State.strobe_of_ready hr]
  rw [State.abandon_of_none (by simpa using hf)]
  simp [State.busy, hb, hf, ha]

/-- R161 to R165: the code of a command with arguments, with busy clear and no frame open. -/
theorem portCode_opens {s : State} {c : Cmd} {take : Frame → State → State}
    (ha : cmdArgs c ≠ 0) (hr : s.byteReady true false (cmdCode c)) (hb : s.op = none)
    (hf : s.port.frame = none) :
    portCode c take s =
      ((s.setPort s.port.paired).openFrame c false).setFrame (some (s.newFrame c)) := by
  simp only [portCode, State.strobe_of_ready hr]
  rw [State.abandon_of_none (by simpa using hf)]
  simp [State.busy, hb, hf, ha]

/-- R165: a frame whose designators match is not marked, and carries the latch. -/
theorem State.newFrame_matched {s : State} {c : Cmd} {d : Latch} (ho : operative c = true)
    (hl : s.port.latch = d) (hm : latchMatches c d = true) :
    s.newFrame c = { cmd := c, args := [], misq := false, desig := d, outcome := .none } := by
  simp [State.newFrame, ho, hl, hm]

/-- R161 to R165: an operative command without arguments is taken at its code: the meaning runs on the state
with the latch and the result buffer emptied. -/
theorem portCode_operative {s : State} {c : Cmd} {take : Frame → State → State} {d : Latch}
    (h : s.codeArrives c d) (ha : cmdArgs c = 0 := by rfl) (ho : operative c = true := by rfl)
    (hm : latchMatches c d = true := by rfl) :
    portCode c take s =
      take { cmd := c, args := [], misq := false, desig := d, outcome := .none }
        (s.setPort { s.port.paired with
          latch := noDesig, result := [], readIdx := 0, ready := false }) := by
  obtain ⟨hr, hb, hf, hl⟩ := h
  rw [portCode_taken ha hr hb hf, State.newFrame_matched ho hl hm]
  simp [State.takeFrame, State.openFrame, ho, State.clearResult, State.setLatch, State.setPort,
    emptyLatch]

/-- R161, R162: the last argument byte of a frame that is not marked: the meaning runs on the state with the
frame closed. -/
theorem portLast_taken {s : State} {c : Cmd} {take : Frame → State → State} {args : List Byte} {b : Byte}
    {d : Latch} (h : s.lastArrives c args b d) (hb : s.op = none ∨ refusedWhileBusy c = false)
    (hc : argsComplete c (args ++ [b]) = true := by rfl) :
    portLast c take b s =
      take { cmd := c, args := args ++ [b], misq := false, desig := d, outcome := .none }
        (s.setPort { s.port.paired with frame := none }) := by
  obtain ⟨hr, hf⟩ := h
  simp only [portLast, State.strobe_of_ready hr, hf, hc, State.setFrame, State.busy, State.takeFrame]
  rcases hb with hb | hb <;> simp [hb, State.setPort]

end Sys2Proof.Machine
end

