-- ==== Sys2Proof/Laws/Tables.lean ====
section
/-! SUPPORT. The tables and the text cells: what a read after a write gives, and that every write keeps the
canonical form. -/

namespace Sys2Proof.Machine

variable {α : Type}

theorem tblGet_tblInsert (d : Nat → α) (t : List (Nat × α)) (k : Nat) (v : α) :
    tblGet d (tblInsert t k v) k = v := by
  induction t with
  | nil => simp [tblInsert, tblGet]
  | cons p rest ih =>
    obtain ⟨j, w⟩ := p
    simp only [tblInsert]
    split
    · simp [tblGet]
    · split
      · simp [tblGet]
      · simp [tblGet, *]

theorem tblGet_tblInsert_ne (d : Nat → α) (t : List (Nat × α)) {k k' : Nat} (v : α) (h : k' ≠ k) :
    tblGet d (tblInsert t k v) k' = tblGet d t k' := by
  induction t with
  | nil => simp [tblInsert, tblGet, Ne.symm h]
  | cons p rest ih =>
    obtain ⟨j, w⟩ := p
    simp only [tblInsert]
    split
    · simp [tblGet, Ne.symm h]
    · split
      · subst_vars; simp [tblGet, Ne.symm h]
      · simp [tblGet, ih]

theorem tblGet_filter (d : Nat → α) (t : List (Nat × α)) (k : Nat) :
    tblGet d (t.filter (fun p => p.1 ≠ k)) k = d k := by
  induction t with
  | nil => rfl
  | cons p rest ih =>
    obtain ⟨j, w⟩ := p
    by_cases hj : j = k
    · simpa [List.filter_cons, hj] using ih
    · simpa [List.filter_cons, hj, tblGet] using ih

theorem tblGet_filter_ne (d : Nat → α) (t : List (Nat × α)) {k k' : Nat} (h : k' ≠ k) :
    tblGet d (t.filter (fun p => p.1 ≠ k)) k' = tblGet d t k' := by
  induction t with
  | nil => rfl
  | cons p rest ih =>
    obtain ⟨j, w⟩ := p
    by_cases hj : j = k
    · subst hj
      simpa [List.filter_cons, tblGet, Ne.symm h] using ih
    · simp only [ne_eq, decide_not, List.filter_cons, hj, decide_false, Bool.not_false, ↓reduceIte,
        tblGet]
      simp only [ne_eq, decide_not] at ih
      rw [ih]

/-- A read of the key written gives the value written. -/
@[simp] theorem tblGet_tblSet [DecidableEq α] (d : Nat → α) (t : List (Nat × α)) (k : Nat) (v : α) :
    tblGet d (tblSet d t k v) k = v := by
  unfold tblSet
  split
  · next h => rw [tblGet_filter, h]
  · exact tblGet_tblInsert d t k v

/-- A write leaves what every other key reads. -/
@[simp] theorem tblGet_tblSet_ne [DecidableEq α] (d : Nat → α) (t : List (Nat × α)) {k k' : Nat} (v : α)
    (h : k' ≠ k) : tblGet d (tblSet d t k v) k' = tblGet d t k' := by
  unfold tblSet
  split
  · exact tblGet_filter_ne d t h
  · exact tblGet_tblInsert_ne d t v h

theorem mem_tblInsert {t : List (Nat × α)} {k : Nat} {v : α} {p : Nat × α} (h : p ∈ tblInsert t k v) :
    p = (k, v) ∨ p ∈ t := by
  induction t with
  | nil => simpa [tblInsert] using h
  | cons q rest ih =>
    obtain ⟨j, w⟩ := q
    simp only [tblInsert] at h
    split at h
    · simpa using h
    · split at h
      · simp only [List.mem_cons] at h ⊢; tauto
      · simp only [List.mem_cons] at h ⊢
        rcases h with h | h
        · exact .inr (.inl h)
        · rcases ih h with h | h
          · exact .inl h
          · exact .inr (.inr h)

/-- An insertion keeps the keys strictly rising. -/
theorem pairwise_tblInsert {t : List (Nat × α)} (k : Nat) (v : α)
    (h : t.Pairwise (fun p q => p.1 < q.1)) : (tblInsert t k v).Pairwise (fun p q => p.1 < q.1) := by
  induction t with
  | nil => simp [tblInsert]
  | cons p rest ih =>
    obtain ⟨j, w⟩ := p
    rw [List.pairwise_cons] at h
    simp only [tblInsert]
    split
    · next hk =>
      rw [List.pairwise_cons]
      refine ⟨?_, List.pairwise_cons.2 h⟩
      intro q hq
      rcases List.mem_cons.1 hq with rfl | hq
      · exact hk
      · exact Nat.lt_trans hk (h.1 q hq)
    · split
      · next _ hj => subst hj; exact List.pairwise_cons.2 h
      · next hk hj =>
        rw [List.pairwise_cons]
        refine ⟨?_, ih h.2⟩
        intro q hq
        rcases mem_tblInsert hq with rfl | hq
        · exact Nat.lt_of_le_of_ne (Nat.le_of_not_lt hk) hj
        · exact h.1 q hq

/-- A write keeps a table in its canonical form. -/
theorem tblWf_tblSet [DecidableEq α] {d : Nat → α} {t : List (Nat × α)} (k : Nat) (v : α)
    (h : tblWf d t) : tblWf d (tblSet d t k v) := by
  unfold tblSet
  split
  · exact ⟨h.1.sublist List.filter_sublist, fun p hp => h.2 p (List.mem_of_mem_filter hp)⟩
  · next hv =>
    refine ⟨pairwise_tblInsert k v h.1, fun p hp => ?_⟩
    rcases mem_tblInsert hp with rfl | hp
    · exact hv
    · exact h.2 p hp

/-! ## Text cells -/

theorem cellRead_tblInsert (m : List Host.Cell) (a : Nat) (b : Byte) :
    cellRead (tblInsert m a b) a = some b := by
  induction m with
  | nil => simp [tblInsert, cellRead]
  | cons p rest ih =>
    obtain ⟨j, w⟩ := p
    simp only [tblInsert]
    split
    · simp [cellRead]
    · split
      · simp [cellRead]
      · simp [cellRead, *]

theorem cellRead_tblInsert_ne (m : List Host.Cell) {a a' : Nat} (b : Byte) (h : a' ≠ a) :
    cellRead (tblInsert m a b) a' = cellRead m a' := by
  induction m with
  | nil => simp [tblInsert, cellRead, Ne.symm h]
  | cons p rest ih =>
    obtain ⟨j, w⟩ := p
    simp only [tblInsert]
    split
    · simp [cellRead, Ne.symm h]
    · split
      · subst_vars; simp [cellRead, Ne.symm h]
      · simp [cellRead, ih]

/-- A text byte written keeps the cells in their canonical form. -/
theorem State.writeText_wf {s s' : State} {bs : List Nat} {k : Nat} {b : Byte}
    (h : s.writeText bs k b = some s') (hw : Memory.wf s.text) : Memory.wf s'.text := by
  unfold State.writeText at h
  split at h
  · cases h
  · cases h; exact pairwise_tblInsert _ _ hw

/-- Text bytes written keep the cells in their canonical form. -/
theorem State.writeTexts_wf {s s' : State} {bs : List Nat} {k : Nat} {cs : List Byte}
    (h : s.writeTexts bs k cs = some s') (hw : Memory.wf s.text) : Memory.wf s'.text := by
  induction cs generalizing s k with
  | nil => cases h; exact hw
  | cons c rest ih =>
    simp only [State.writeTexts] at h
    split at h
    · cases h
    · next s1 h1 => exact ih h (State.writeText_wf h1 hw)

/-- The cells right after reset are in their canonical form. -/
theorem State.reset_text_wf : Memory.wf State.reset.text := List.Pairwise.nil

/-! ## The tables of the state -/

@[simp] theorem State.acct_setAcct (s : State) (i : Nat) (a : Account) : (s.setAcct i a).acct i = a :=
  tblGet_tblSet ..
@[simp] theorem State.acct_setAcct_ne (s : State) {i j : Nat} (a : Account) (h : j ≠ i) :
    (s.setAcct i a).acct j = s.acct j := tblGet_tblSet_ne _ _ _ h
@[simp] theorem State.slot_setSlot (s : State) (i : Nat) (v : PageSlot) : (s.setSlot i v).slot i = v :=
  tblGet_tblSet ..
@[simp] theorem State.slot_setSlot_ne (s : State) {i j : Nat} (v : PageSlot) (h : j ≠ i) :
    (s.setSlot i v).slot j = s.slot j := tblGet_tblSet_ne _ _ _ h
@[simp] theorem State.wheelList_setWheelList (s : State) (w : Nat) (ts : List Tag) :
    (s.setWheelList w ts).wheelList w = ts := tblGet_tblSet ..
@[simp] theorem State.wheelList_setWheelList_ne (s : State) {w w' : Nat} (ts : List Tag) (h : w' ≠ w) :
    (s.setWheelList w ts).wheelList w' = s.wheelList w' := tblGet_tblSet_ne _ _ _ h
@[simp] theorem State.setting_setSetting (s : State) (a v : Nat) : (s.setSetting a v).setting a = v :=
  tblGet_tblSet ..
@[simp] theorem State.setting_setSetting_ne (s : State) {a b : Nat} (v : Nat) (h : b ≠ a) :
    (s.setSetting a v).setting b = s.setting b := tblGet_tblSet_ne _ _ _ h

end Sys2Proof.Machine
end

