-- ==== Sys2Proof/Laws/Pages.lean ====
section
/-! SUPPORT. What the operations that the blocks share can do, each said once: the account event, the
watermark hold, the ending of a page and its steps, scheduling, lookups, text, and the operations that take
time. A proof cites these and unfolds none of them. -/

namespace Sys2Proof.Machine

/-! ## Flags that an event recomputes -/

/-- R35: an account event writes one account, its overrun flag recomputed, and raises OVERRUN when the flag
goes from clear to set. -/
theorem State.commit_eq (s : State) (i : Nat) (a : Account) :
    s.commit i a =
      { s.setAcct i a.recompute with
        port := { s.port with
          causes := if a.recompute.overrun && !(s.acct i).overrun then s.port.causes ||| 0x02
            else s.port.causes } } := by
  unfold State.commit
  dsimp only
  split <;> simp [State.raise, causeBit, State.setAcct]

@[simp] theorem State.acct_commit (s : State) (i : Nat) (a : Account) :
    (s.commit i a).acct i = a.recompute := by
  rw [State.commit_eq]
  exact State.acct_setAcct s i a.recompute

theorem State.acct_commit_ne (s : State) {i j : Nat} (a : Account) (h : j ≠ i) :
    (s.commit i a).acct j = s.acct j := by
  rw [State.commit_eq]
  exact State.acct_setAcct_ne s a.recompute h

/-- R24: the hold is recomputed from the free blocks, and POOL_HOLD is raised when it goes up. -/
theorem State.recomputePool_eq (s : State) :
    s.recomputePool =
      let hold := poolHoldOf s.freeBlocks.length s.lowMark s.highMark s.poolHold
      { s with
        poolHold := hold
        port := { s.port with
          causes := if hold && !s.poolHold then s.port.causes ||| 0x04 else s.port.causes } } := by
  unfold State.recomputePool
  dsimp only
  split <;> simp [State.raise, causeBit]

/-- R23, R24: blocks given back come to the top of the stack, the last of them first. -/
theorem State.giveBlocks_eq (s : State) (bs : List Nat) :
    s.giveBlocks bs =
      let free := bs.reverse ++ s.freeBlocks
      let hold := poolHoldOf free.length s.lowMark s.highMark s.poolHold
      { s with
        freeBlocks := free, poolHold := hold
        port := { s.port with
          causes := if hold && !s.poolHold then s.port.causes ||| 0x04 else s.port.causes } } := by
  unfold State.giveBlocks
  rw [State.recomputePool_eq]
  rfl

/-- R23, R24: blocks taken leave the top of the stack. -/
theorem State.takeBlocks_eq (s : State) (k : Nat) :
    s.takeBlocks k =
      let free := s.freeBlocks.drop k
      let hold := poolHoldOf free.length s.lowMark s.highMark s.poolHold
      { s with
        freeBlocks := free, poolHold := hold
        port := { s.port with
          causes := if hold && !s.poolHold then s.port.causes ||| 0x04 else s.port.causes } } := by
  unfold State.takeBlocks
  rw [State.recomputePool_eq]
  rfl

/-! ## The steps of an ending -/

/-- R91: leaving a place changes the lines, the bands, the wheel with its visits, and the lookups only. -/
theorem State.leavePlace_frame (s : State) (t : Tag) (e : Entry) :
    s.leavePlace t e =
      { s with
        lines := (s.leavePlace t e).lines, chans := (s.leavePlace t e).chans
        wheel := (s.leavePlace t e).wheel, visits := (s.leavePlace t e).visits
        lookups := s.lookups.filter (fun l => !isLaunchOf t l.user) } := by
  unfold State.leavePlace State.dropLookup
  cases e.state <;>
    simp [State.leaveSlot, State.leaveBand, State.unbindLines, State.setChan] <;>
    split <;> simp [State.leaveWheel, State.setWheelList]

@[simp] theorem State.acct_leavePlace (s : State) (t : Tag) (e : Entry) (i : Nat) :
    (s.leavePlace t e).acct i = s.acct i := by rw [State.leavePlace_frame]; rfl

@[simp] theorem State.slot_leavePlace (s : State) (t : Tag) (e : Entry) (i : Nat) :
    (s.leavePlace t e).slot i = s.slot i := by rw [State.leavePlace_frame]; rfl

/-- R36: an ending reaches its account only, and may raise OVERRUN. -/
theorem State.endingEvent_frame (s : State) (i : Nat) (k : Ending) (c r : Nat) :
    s.endingEvent i k c r =
      { s with
        accounts := (s.endingEvent i k c r).accounts
        port := { s.port with causes := (s.endingEvent i k c r).port.causes } } := by
  unfold State.endingEvent
  cases k <;> simp [State.commit_eq, State.setAcct]

@[simp] theorem State.slot_endingEvent (s : State) (i : Nat) (k : Ending) (c r j : Nat) :
    (s.endingEvent i k c r).slot j = s.slot j := by rw [State.endingEvent_frame]; rfl

/-- R15, R16: a falling live count changes the directory, and may begin a removal or make one pending. -/
theorem State.lowerLive_frame (s : State) (a : Nat) :
    s.lowerLive a =
      { s with
        directory := s.directory.map (fun r => if r.addr = a then { r with live := r.live - 1 } else r)
        op := (s.lowerLive a).op, pendingRemovals := (s.lowerLive a).pendingRemovals
        lookups := (s.lowerLive a).lookups } := by
  unfold State.lowerLive State.endingRemoval State.updateRecord State.beginOp
  dsimp only
  split
  · split
    · cases s.op with
      | none => rfl
      | some o => dsimp only; split <;> rfl
    · rfl
  · rfl

@[simp] theorem State.acct_lowerLive (s : State) (a i : Nat) : (s.lowerLive a).acct i = s.acct i := by
  rw [State.lowerLive_frame]; rfl

@[simp] theorem State.slot_lowerLive (s : State) (a i : Nat) : (s.lowerLive a).slot i = s.slot i := by
  rw [State.lowerLive_frame]; rfl

/-- R91: a tag that names no live entry is passed over. -/
theorem State.endEntry_of_none {s : State} {t : Tag} (k : Ending) (h : s.entry t = none) :
    s.endEntry k t = s := by
  simp [State.endEntry, h]

/-- R91: the steps of the ending of a live entry, in their order. -/
theorem State.endEntry_of_some {s : State} {t : Tag} {e : Entry} (k : Ending) (h : s.entry t = some e) :
    s.endEntry k t =
      State.freeSlot
        (State.lowerLive
          (State.endingEvent ((s.giveBlocks e.blocks).leavePlace t e) e.account k e.charge (s.refundFor k e))
          e.addr)
        t.slot k := by
  simp [State.endEntry, h]

/-! ## Scheduling, lookups and operations -/

/-- R105: scheduling changes the wheel with its visits and the entry's slot only. -/
theorem State.schedule_frame (s : State) (t : Tag) (e : Entry) (st : PageState) (d : Nat) :
    s.schedule t e st d =
      { s with
        wheel := (s.schedule t e st d).wheel, visits := (s.schedule t e st d).visits
        slots := (s.schedule t e st d).slots } := by
  unfold State.schedule State.leaveSlot
  cases e.wheel <;> simp [State.leaveWheel, State.setWheelList, State.setEntry, State.setSlot]

/-- R16: the completion of an operation raises DONE and begins the oldest pending removal or clears busy. -/
theorem State.completeOp_eq (s : State) :
    s.completeOp =
      { s with
        port := { s.port with causes := s.port.causes ||| 0x40 }
        op := s.pendingRemovals.head?.map (fun a => .removal a true)
        pendingRemovals := s.pendingRemovals.tail } := by
  unfold State.completeOp
  split
  · rename_i h
    simp [State.raise, causeBit, h]
  · rename_i h
    simp [State.raise, causeBit, h]

/-- R16: an ending's removal begins, or waits behind the operation in progress. -/
theorem State.endingRemoval_eq (s : State) (a : Nat) :
    s.endingRemoval a =
      if s.op = none then s.beginOp (.removal a true)
      else if a ∈ s.pendingRemovals then s
      else { s with pendingRemovals := s.pendingRemovals ++ [a] } := by
  unfold State.endingRemoval
  cases s.op <;> simp

/-- R7: an answer is due exactly to the oldest lookup, with no operation in progress and no removal
pending. -/
theorem State.answerable_eq_some {s : State} {u : LookupUser} :
    s.answerable = some u ↔
      s.op = none ∧ s.pendingRemovals = [] ∧ ∃ held rest, s.lookups = { user := u, held := held } :: rest := by
  unfold State.answerable State.lookupsOpen
  constructor
  · intro h
    split at h
    · rename_i ho
      simp only [Bool.and_eq_true, Option.isNone_iff_eq_none, List.isEmpty_iff] at ho
      cases hl : s.lookups with
      | nil => simp [hl] at h
      | cons l rest =>
        simp only [hl, List.head?_cons, Option.map_some, Option.some.injEq] at h
        subst h
        exact ⟨ho.1, ho.2, l.held, rest, rfl⟩
    · cases h
  · rintro ⟨h1, h2, held, rest, h3⟩
    simp [h1, h2, h3]

/-! ## Text (R23, R68) -/

/-- R68: a text byte written changes one text cell, or no unit covers it. -/
theorem State.writeText_eq_some {s s' : State} {bs : List Nat} {k : Nat} {b : Byte} :
    s.writeText bs k b = some s' ↔
      ∃ block, bs[k / 16]? = some block ∧ dirCapacity s.partition + block < 4608 ∧
        s' = { s with text := tblInsert s.text (16 * (dirCapacity s.partition + block) + k % 16) b } := by
  unfold State.writeText textAddress
  cases h : bs[k / 16]? with
  | none => simp
  | some block =>
    by_cases hb : dirCapacity s.partition + block < 4608
    · simp [hb, eq_comm]
    · simp [hb]

/-! ## The begin of a service (R136) -/

/-- R136: beginning a service moves the pointer and asks for a lookup, and changes nothing else. -/
theorem State.beginService_frame (s : State) :
    s.beginService =
      { s with servicePtr := s.beginService.servicePtr, lookups := s.beginService.lookups } := by
  unfold State.beginService State.askLookup
  cases s.nextFull <;> rfl

/-- R136: the next full slot is the first after the one that the pointer names. -/
theorem State.nextFull_eq_some {s : State} {n : LineNo} {k : Nat} (hk : k < 4)
    (hn : n.val = (s.servicePtr.val + 1 + k) % 4) (hf : (s.abSlot n).frame ≠ none)
    (he : ∀ (j : Nat) (m : LineNo), j < k → m.val = (s.servicePtr.val + 1 + j) % 4 →
      (s.abSlot m).frame = none) : s.nextFull = some n := by
  have hlt : ∀ x, x % 4 < 4 := fun x => Nat.mod_lt x (by decide)
  have hn' : (⟨(s.servicePtr.val + (k + 1)) % 4, hlt _⟩ : LineNo) = n :=
    Fin.ext (by simp only [hn]; congr 1; omega)
  have he' : ∀ j, j < k → (s.abSlot ⟨(s.servicePtr.val + (j + 1)) % 4, hlt _⟩).frame = none :=
    fun j hj => he j _ hj (by simp only; congr 1; omega)
  have hs : ((s.abSlot ⟨(s.servicePtr.val + (k + 1)) % 4, hlt _⟩).frame).isSome = true := by
    rw [hn']; exact Option.isSome_iff_ne_none.mpr hf
  have e0 := fun h => he' 0 h
  have e1 := fun h => he' 1 h
  have e2 := fun h => he' 2 h
  obtain rfl | rfl | rfl | rfl : k = 0 ∨ k = 1 ∨ k = 2 ∨ k = 3 := by omega
  all_goals simp_all [State.nextFull, lineOfCode]

/-- R136: with no slot full there is no next one. -/
theorem State.nextFull_eq_none {s : State} (h : ∀ m, (s.abSlot m).frame = none) : s.nextFull = none := by
  simp only [State.nextFull, List.findSome?_eq_none_iff]
  intro k _
  split <;> simp [h]

/-- R136: what the begin of a service does: nothing with no slot full, and otherwise the pointer and the
lookup of the first full slot after the one that the pointer names. -/
theorem State.beginService_cases (s : State) :
    (s.nextFull = none ∧ s.beginService = s) ∨
    ∃ n, s.nextFull = some n ∧
      s.beginService = State.askLookup { s with servicePtr := n } (.service n) := by
  unfold State.beginService
  cases h : s.nextFull with
  | none => exact .inl ⟨rfl, rfl⟩
  | some n => exact .inr ⟨n, rfl, rfl⟩

/-! ## Ticks at the lines and samples (R71, R148, R149) -/

theorem State.takeLateTick_of_clear {s : State} {n : LineNo} (h : (s.line n).tickDue = false) :
    s.takeLateTick n = s := by
  simp [State.takeLateTick, h]

theorem State.takeLateSample_of_clear {s : State} {c : Chan} (h : (s.mon c).sampleDue = false) :
    s.takeLateSample c = s := by
  simp [State.takeLateSample, h]

/-- A tick with nothing of the tick before it left to take. -/
theorem State.takeLate_of_clear {s : State} (hl : ∀ n, (s.line n).tickDue = false)
    (hc : ∀ c, (s.mon c).sampleDue = false) : s.takeLate = s := by
  simp [State.takeLate, State.takeLateTick_of_clear, State.takeLateSample_of_clear, hl, hc]

/-- R71: a tick at a line leaves it, aborts it, or raises its timer. -/
theorem State.tickLine_cases (s : State) (n : LineNo) :
    ((s.line n).state.counts = false ∧ s.tickLine n = s) ∨
    ((s.line n).state.counts = true ∧ s.idleLimit n ≤ satAdd 60 (s.line n).timer 1 ∧
      s.tickLine n = s.abortLine n .timeout) ∨
    ((s.line n).state.counts = true ∧ satAdd 60 (s.line n).timer 1 < s.idleLimit n ∧
      s.tickLine n = s.setLine n { s.line n with timer := satAdd 60 (s.line n).timer 1 }) := by
  unfold State.tickLine
  cases h : (s.line n).state.counts <;> simp
  by_cases hl : s.idleLimit n ≤ satAdd 60 (s.line n).timer 1
  · exact .inl ⟨hl, by simp [hl]⟩
  · exact .inr ⟨by omega, by simp [hl]⟩

/-- R147: a move changes one monitor record and raises LEVEL. -/
theorem State.moveLevel_frame (s : State) (c : Chan) (l : Nat) :
    s.moveLevel c l =
      { s with
        mons := (s.moveLevel c l).mons
        port := { s.port with
          causes := if (s.mon c).level = l then s.port.causes else s.port.causes ||| 0x01 } } := by
  unfold State.moveLevel
  split <;> simp [State.raise, State.setMon, causeBit, *]

/-- R148: no sample is made while the monitor is disabled. -/
theorem State.sample_of_off {s : State} {c : Chan} (h : s.monitorOn = false) : s.sample c = s := by
  simp [State.sample, h]

/-- R148, R149: while the monitor is enabled a sample writes its channel's record, and where its target is a
level it moves there. -/
theorem State.sample_of_on {s : State} {c : Chan} (h : s.monitorOn = true) {a : Nat} {m : Monitor}
    (ha : a = filtered (s.mon c).activity (weightOf (s.chan c).queueLength))
    (hm : m = (s.mon c).sampled a (s.upTest c a) (s.downTest c a)) :
    (∀ l, s.sampleTarget m (s.upTest c a) (s.downTest c a) = some l →
      s.sample c = (s.setMon c m).moveLevel c l) ∧
    (s.sampleTarget m (s.upTest c a) (s.downTest c a) = none → s.sample c = s.setMon c m) := by
  subst ha hm
  constructor
  · intro l hl
    simp [State.sample, h, hl]
  · intro hn
    simp [State.sample, h, hn]

/-- R148, R149: a sample changes the monitor records and the notice causes only. -/
theorem State.sample_frame (s : State) (c : Chan) :
    s.sample c =
      { s with mons := (s.sample c).mons, port := { s.port with causes := (s.sample c).port.causes } } := by
  by_cases h : s.monitorOn = false
  · rw [State.sample_of_off h]
  · rw [Bool.not_eq_false] at h
    obtain ⟨hs, hn⟩ := State.sample_of_on (c := c) h rfl rfl
    cases ht : s.sampleTarget _ _ _ with
    | some l =>
      rw [hs l ht, State.moveLevel_frame]
      simp [State.setMon]
    | none =>
      rw [hn ht]
      simp [State.setMon]

/-- R72: what a line abort does to the state, the line apart. -/
theorem State.abortLine_line (s : State) (n : LineNo) (c : AbortCause) :
    (s.abortLine n c).line n = (s.line n).abort c := by
  simp [State.abortLine]

end Sys2Proof.Machine
end

