-- ==== Sys2Proof/Tests/Slice0.lean ====
section
/-! SUPPORT. Tests: the checks of WellFormed refuse an ill-formed term each; one small step of every row,
with its expected result worked out from the rule named; and for every statement with hypotheses a
concrete state that meets them together, clause by clause. -/

namespace Sys2Proof.Tests

open Sys2Proof Sys2Proof.Machine

/-! ## Small states -/

/-- The step is taken, and the state it leaves has the property. -/
def runs (c : Instr) (s : State) (p : State → Bool) : Bool :=
  match exec c s with
  | .next t => p t
  | .fault _ | .refused _ => false

/-- A pager in zone 3 of channel A under account 5. -/
def pager : Subscriber :=
  { addr := 1000, state := .active, cls := 0, account := 5, profile := 0, home := .A, homeZone := 3, zone := 3
    lastHeard := none, oneWay := false, nextSerial := 0, live := 0, mark := false }

/-- An OPEN account of balance 500 and credit limit 100. -/
def account : Account := { unusedAccount with state := .opened, balance := 500, cl := 100, refs := 1 }

/-- One subscriber, one account, both channels OPEN, and four free blocks with watermarks 1 and 2. -/
def office : State :=
  { State.reset with
    directory := [pager], accounts := [(5, account)], freeBlocks := [0, 1, 2, 3]
    settings := [(0x34, 1), (0x36, 2)]
    chans := ⟨{ freshChannel with state := .opened }, { freshChannel with state := .opened }⟩ }

/-- A page of 20 characters to the pager, charged 10 (R46). -/
def page (st : PageState) : Entry :=
  { state := st, addr := 1000, chan := .A, serial := 0, priority := .normal, kind := .text, len := 20
    blocks := [0, 1], account := 5, cls := 0, maxAttempts := 4, t1 := 2, t2 := 3, base := 30, cap := 240
    lifetime := 1800, charge := 10, attempts := 0, deferrals := 0, source := .line 0, accepted := 0
    deadline := 1800, attempt := none, cancelPending := false, expirePending := false, wheel := none }

/-- The attempt of a first launch: tier 1, zone 3 alone. -/
def firstAttempt : Attempt := { mask := 8, tier := 1, oneWay := false }

/-- The tag of slot 0 with generation 1. -/
def tag0 : Tag := { slot := 0, gen := 1 }

/-- The office with the live entry `e` in slot 0. -/
def holding (e : Entry) : State :=
  { office with
    slots := [(0, { gen := 1, last := .none, entry := some e })], freeBlocks := [2, 3]
    directory := [{ pager with live := 1, nextSerial := 1 }]
    accounts := [(5, { account with balance := 490, held := 10, accepted := 1, charged := 10, mark := true })] }

/-- A frame of `c` is open with these argument bytes and designators. -/
def framed (c : Cmd) (args : List Byte) (d : Latch) (s : State) : State :=
  s.setFrame (some { cmd := c, args := args, misq := false, desig := d, outcome := .none })

/-- The latch holds `d`. -/
def latched (d : Latch) (s : State) : State := s.setLatch d

/-- The operation `o` is in progress. -/
def during (o : Operation) (s : State) : State := { s with op := some o }

/-- The oldest lookup is made for `u`. -/
def asked (u : LookupUser) (s : State) : State := { s with lookups := [{ user := u, held := false }] }

/-- The 4-bit port with the nibble `v` of a strobe pending. -/
def nibbled (write cd : Bool) (v : BitVec 4) (s : State) : State :=
  { s with port := { s.port with fourBit := true, nibble := some { write := write, cd := cd, value := v } } }

/-- The line 0 as given. -/
def lined (l : Line) (s : State) : State := s.setLine 0 l

/-- A waiting entry on wheel slot 1, being visited there. -/
def visited (e : Entry) : State :=
  { holding e with wheel := [(1, [tag0])], visits := [{ slot := 1, todo := [tag0] }], head := 1, time := 1 }

/-- The QUEUED page at the head of channel A's NORMAL band. -/
def queuedA : State :=
  (holding { page .queued with attempt := some firstAttempt, len := 1 }).setChan .A
    { freshChannel with state := .opened, normal := [tag0] }

/-- The ON_AIR page on channel A's outstanding list. -/
def airedA (e : Entry) : State :=
  (holding e).setChan .A { freshChannel with state := .opened, outstanding := [tag0] }

/-- The ON_AIR page of a first attempt. -/
def aired : Entry := { page .onAir with attempt := some firstAttempt }

/-- The service of a frame of this kind at slot 0 has its lookup asked for. -/
def serving (kind : Byte) (s : State) : State :=
  (asked (.service 0) s).setAbSlot 0
    { freshAbSlot with frame := some { kind := kind, addr := 1000, serial := 0 } }

/-! ## WellFormed -/

theorem test_wf_wheel_slot : (Instr.wheelVisit 64).wf = false ∧ (Instr.wheelVisit 63).wf = true := by decide
theorem test_wf_deadline_slot : (Instr.deadlineExpired 64).wf = false := by decide
theorem test_wf_window_slot : (Instr.windowEnd 64).wf = false := by decide
theorem test_wf_known_code : (Instr.unknownCommandCode 0x68).wf = false := by decide
theorem test_wf_unknown_code : (Instr.unknownCommandCode 0x09).wf = true := by decide
theorem test_wf_report_kind : (Instr.unknownReportKind .A 0x02 0 0).wf = false := by decide
theorem test_wf_read_nibble : (Instr.pendingNibble false true 1).wf = false := by decide

/-! ## One step of every row -/

/-- R3. -/
theorem test_powerOn : runs .powerOn office (fun t => t.op = some .autoclear && t.directory = []) := by decide
/-- R3. -/
theorem test_autoclearComplete :
    runs .autoclearComplete (during .autoclear State.reset) (fun t => t.op = none && t.time = 0) := by decide
/-- R167. -/
theorem test_portReset : runs .portReset (framed .submitPage [1] noDesig (latched (subDesig 7) office))
    (fun t => t.port.frame = none && t.port.latch = noDesig && t.port.ready = false) := by decide
/-- R102, R107, R148: while the monitor is off a late channel has no sample to make. -/
theorem test_tick : runs .tick
    { office with time := 4294967295, head := 63, monitorOn := false, lateTicks := [[.channel .A]] }
    (fun t => t.time = 4294967295 && t.head = 0 && !(t.mon .A).sampleDue) := by decide
/-- R148: activity (7 x 0 + 64 x 1 + 4) div 8 = 8. -/
theorem test_tick_sample : runs .tick queuedA (fun t => (t.mon .A).activity = 8) := by decide
/-- R107, R148: a channel that `lateTicks` names leaves its sample to LEVEL_MOVE. -/
theorem test_tick_late : runs .tick { queuedA with lateTicks := [[.channel .A, .line 1], []] }
    (fun t => (t.mon .A).activity = 0 && (t.mon .A).sampleDue && (t.line 1).tickDue && t.lateTicks = [[]]) := by
  decide
/-- R149, R147: the sample that brings the up count to Hup, 3, makes the move, and the new activity stays. -/
theorem test_tick_move : runs .tick (office.setMon .A { freshMonitor with activity := 4095, up := 2 })
    (fun t => (t.mon .A).level = 1 && (t.mon .A).up = 0 && (t.mon .A).residency = 0
      && (t.mon .A).activity = 3583 && t.port.causes = 0x01) := by decide
/-- R148: a sample left to its own step is made there. -/
theorem test_levelMove :
    runs (.levelMove .A) (office.setMon .A { freshMonitor with sampleDue := true, activity := 4095, up := 2 })
      (fun t => (t.mon .A).level = 1 && (t.mon .A).sampleDue = false && t.port.causes = 0x01) := by decide
/-- R108: rounds above 0 fall by 1. -/
theorem test_wheelVisit : runs (.wheelVisit 1) (visited { page .waiting with wheel := some (1, 2) })
    (fun t => (t.entry tag0).map (fun e => e.wheel) = some (some (1, 1)) && t.visits = []) := by decide
/-- R108, R91. -/
theorem test_deadlineExpired :
    runs (.deadlineExpired 1) (visited { page .waiting with wheel := some (1, 2), deadline := 1 })
      (fun t => (t.slot 0).last = .expired && (t.slot 0).entry = none && t.wheelList 1 = []) := by decide
/-- R53: the partial refund of 10 at R = 4 is 10 x 4 div 8 = 5. -/
theorem test_deadlineExpired_refund :
    runs (.deadlineExpired 1) (visited { page .waiting with wheel := some (1, 0), deadline := 1 })
      (fun t => (t.acct 5).balance = 495 && (t.acct 5).held = 0 && (t.acct 5).refunded = 5) := by decide
/-- R108, R110. -/
theorem test_windowEnd : runs (.windowEnd 1) (visited { page .listening with wheel := some (1, 0), attempts := 1 })
    (fun t => t.launchAsked tag0) := by decide
/-- R113: tier 1 names the current zone alone, zone 3. -/
theorem test_launch : runs .launch (asked (.launch tag0) (holding (page .assembling)))
    (fun t => (t.chan .A).normal = [tag0]
      && (t.entry tag0).map (fun e => e.attempt) = some (some firstAttempt)) := by decide
/-- R115, R105. -/
theorem test_launch_blocked :
    runs .launch (asked (.launch tag0) ((holding (page .assembling)).setChan .A freshChannel))
      (fun t => (t.entry tag0).map (fun e => (e.state, e.deferrals, e.wheel)) = some (.waiting, 1, some (1, 0))) := by
  decide
/-- R60. -/
theorem test_intakeByte : runs (.intakeByte 0 0x41) (lined { freshLine with state := .idle } office)
    (fun t => (t.line 0).fifo = [0x41]) := by decide
/-- R61: the byte that finds the FIFO full aborts the line. -/
theorem test_intakeByte_full :
    runs (.intakeByte 0 0x41) (lined { freshLine with state := .header, fifo := List.replicate 64 0 } office)
      (fun t => (t.line 0).fifo = [] && (t.line 0).overflow
        && (t.line 0).receipt = some (.refused .fifoOverrun 0)) := by decide
/-- R64. -/
theorem test_idleByte : runs (.idleByte 0) (lined { freshLine with state := .idle, fifo := [0x7E], sum := 9 } office)
    (fun t => (t.line 0).state = .header && (t.line 0).sum = 0) := by decide
/-- R64. -/
theorem test_idleByte_junk : runs (.idleByte 0) (lined { freshLine with state := .idle, fifo := [0x7D] } office)
    (fun t => (t.line 0).state = .idle && (t.line 0).junk = 1) := by decide
/-- R65. -/
theorem test_headerByte :
    runs (.headerByte 0) (lined { freshLine with state := .header, fifo := [0x03], sum := 0xFF, timer := 4 } office)
      (fun t => (t.line 0).header = [0x03] && (t.line 0).sum = 0x02 && (t.line 0).timer = 0) := by decide
/-- R80: a length of 241 is refused at once. -/
theorem test_headerByte_length :
    runs (.headerByte 0) (lined { freshLine with state := .header, header := [0, 0, 3, 0xE8], fifo := [241] } office)
      (fun t => (t.line 0).state = .skip && (t.line 0).remaining = 242
        && (t.line 0).receipt = some (.refused .length 0)) := by decide
/-- R82, R46: a page of 20 characters at the power-on tariff is charged 10. -/
theorem test_admission :
    runs .admission (asked (.admission (.line 0) { addr := 1000, priority := .normal, kind := .text, len := 20 }) office)
      (fun t => (t.acct 5).balance = 490 && (t.acct 5).held = 10 && t.freeBlocks = [2, 3]
        && (t.line 0).bound = some tag0 && (t.line 0).state = .text) := by decide
/-- R80. -/
theorem test_admission_unknown :
    runs .admission (asked (.admission (.line 0) { addr := 999, priority := .normal, kind := .text, len := 20 }) office)
      (fun t => (t.line 0).receipt = some (.refused .unknown 0) && (t.line 0).remaining = 21) := by decide
/-- R68: character 16 goes to position 0 of the second block, unit 4,096 + 1. -/
theorem test_textByte :
    runs (.textByte 0)
      (lined { freshLine with state := .text, fifo := [0x42], bound := some tag0, remaining := 4 }
        (holding (page .assembling)))
      (fun t => cellRead t.text (16 * 4097) = some 0x42 && (t.line 0).remaining = 3) := by decide
/-- R69. -/
theorem test_checkByte :
    runs (.checkByte 0) (lined { freshLine with state := .check, fifo := [0x10], sum := 0xF0, bound := some tag0 }
        (holding (page .assembling)))
      (fun t => (t.line 0).receipt = some (.accepted tag0 0) && (t.line 0).state = .idle
        && t.launchAsked tag0) := by decide
/-- R69: a wrong check byte ends the page ABORTED with its full refund. -/
theorem test_checkByte_bad :
    runs (.checkByte 0) (lined { freshLine with state := .check, fifo := [0x11], sum := 0xF0, bound := some tag0 }
        (holding (page .assembling)))
      (fun t => (t.line 0).receipt = some (.refused .badCheck 0) && (t.acct 5).balance = 500
        && t.freeBlocks = [1, 0, 2, 3]) := by decide
/-- R70. -/
theorem test_skipByte : runs (.skipByte 0) (lined { freshLine with state := .skip, fifo := [1], remaining := 1 } office)
    (fun t => (t.line 0).state = .idle && (t.line 0).fifo = []) := by decide
/-- R71: at the power-on idle timeout, 5, the tick aborts the line. -/
theorem test_tick_timeout :
    runs .tick (lined { freshLine with state := .header, timer := 4 } office)
      (fun t => (t.line 0).state = .idle && (t.line 0).receipt = some (.refused .timeout 0)) := by decide
/-- R71, R72: a tick left to a step of the line's own. -/
theorem test_idleTimeout :
    runs (.idleTimeout 0) (lined { freshLine with state := .header, timer := 4, tickDue := true } office)
      (fun t => (t.line 0).state = .idle && (t.line 0).receipt = some (.refused .timeout 0)) := by decide
/-- R74, R169. -/
theorem test_receiptFetch :
    runs (.receiptFetch 0 false) (lined { freshLine with receipt := some (.accepted tag0 5) } office)
      (fun t => t.out.rcv.v0 = [1, 0, 1, 5] && (t.line 0).receipt = none) := by decide
/-- R74. -/
theorem test_receiptFetch_none : runs (.receiptFetch 0 false) office
    (fun t => t.out.rcv.v0 = [0, 0, 0, 0] && (t.line 0).underflow) := by decide
/-- R10, R4. -/
theorem test_additionComplete : runs .additionComplete (during (.addition { pager with addr := 999 }) office)
    (fun t => t.directory.map (fun r => r.addr) = [999, 1000] && (t.acct 5).refs = 2 && t.port.causes = 0x40) := by
  decide
/-- R17. -/
theorem test_removalComplete : runs .removalComplete (during (.removal 1000 true) office)
    (fun t => t.directory = [] && (t.acct 5).refs = 0 && t.port.causes = 0x48 && t.op = none) := by decide
/-- R2: the completion puts the partition in force. -/
theorem test_partitionComplete : runs .partitionComplete (during (.rebuild 1) office)
    (fun t => t.partition = 1 && t.freeBlocks.head? = some 0 && t.op = none) := by decide +kernel
/-- R100. -/
theorem test_purgeSlot : runs .purgeSlot (during (.purge 0) queuedA)
    (fun t => (t.slot 0).last = .cancelled && (t.acct 5).balance = 500 && t.op = some (.purge 1)) := by decide
/-- R101. -/
theorem test_purgeComplete : runs .purgeComplete (during (.purge 256) office)
    (fun t => t.op = none && t.port.causes = 0x40) := by decide
/-- R125, R170: the PAGE answer. -/
theorem test_pull : runs (.pull .A false) { queuedA with text := [(65536, 0x41)] }
    (fun t => t.out.enc.a = [0x00, 0, 1, 0, 0x03, 0xE8, 0, 1, 0, 8, 1, 0x41]
      && (t.chan .A).outstanding = [tag0]) := by decide
/-- R126. -/
theorem test_pull_drained : runs (.pull .A false) (office.setChan .A { freshChannel with state := .draining })
    (fun t => t.out.enc.a = [0x04] && (t.chan .A).state = .closed && t.port.causes = 0x10) := by decide
/-- R128: the first SENT takes no surcharge and listens for the base window, 30. -/
theorem test_sent : runs (.sent .A 0 1) (airedA aired)
    (fun t => (t.entry tag0).map (fun e => (e.state, e.attempts, e.wheel)) = some (.listening, 1, some (30, 0))
      && (t.acct 5).balance = 490) := by decide
/-- R49: the second attempt of tier 2 is surcharged (2 x 2 x 16 + 8) div 16 = 4. -/
theorem test_sent_surcharge :
    runs (.sent .A 0 1) (airedA { aired with attempts := 1, attempt := some { firstAttempt with tier := 2 } })
      (fun t => (t.acct 5).balance = 486 && (t.acct 5).charged = 14
        && (t.entry tag0).map (fun e => e.wheel) = some (some (60, 0))) := by decide
/-- R129. -/
theorem test_failed : runs (.failed .A 0 1) (airedA aired)
    (fun t => (t.entry tag0).map (fun e => (e.state, e.attempts, e.wheel)) = some (.waiting, 0, some (1, 0))
      && t.port.causes = 0x20) := by decide
/-- R171: bits 6 and 7 of the first address byte and of the serial byte are ignored. -/
theorem test_answerBackFrame :
    runs (.answerBackFrame 0 false 0xC5) (office.setAbSlot 0 { freshAbSlot with rx := [0x01, 0xC0, 0x03, 0xE8] })
      (fun t => (t.abSlot 0).frame = some { kind := 1, addr := 1000, serial := 5 } && (t.abSlot 0).rx = []) := by
  decide
/-- R136: from the pointer 3, slot 0 is looked at first. -/
theorem test_answerBackService :
    runs .answerBackService (((serving 1 office).setAbSlot 2 (serving 1 office).ab.v0) |> fun s => { s with lookups := [] })
      (fun t => t.servicePtr = 0 && t.serveState 0 = .selected) := by decide
/-- R139: roaming by a REGISTER; the receiver of input 0 is A, zone 0. R136: slot 2 is served next, at once. -/
theorem test_serviceAnswer :
    runs .serviceAnswer { (serving 3 office).setAbSlot 2 (serving 3 office).ab.v0 with time := 77, servicePtr := 0 }
      (fun t => t.directory.map (fun r => (r.zone, r.lastHeard)) = [(0, some 77)] && (t.abSlot 0).frame = none
        && t.servicePtr = 2 && t.serveState 2 = .selected) := by
  decide
/-- R141: a RECEIVED ends the page DELIVERED. -/
theorem test_serviceAnswer_received : runs .serviceAnswer (serving 1 (airedA aired))
    (fun t => (t.slot 0).last = .delivered && (t.acct 5).delivered = 1 && (t.acct 5).balance = 490) := by
  decide +kernel
/-- R163. -/
theorem test_resultRead :
    runs (.resultRead true) { office with port := { freshPort with result := [7, 9], readIdx := 1, ready := true } }
      (fun t => t.out.data = 9 && t.port.ready = false && t.port.readIdx = 2) := by decide
/-- R163: the status byte. -/
theorem test_resultRead_status :
    runs (.resultRead false) { office with port := { freshPort with ready := true, causes := 0x40, enables := 0x40 } }
      (fun t => t.out.data = 0x06 && t.port.ready) := by decide
/-- R161. -/
theorem test_argumentByte : runs (.argumentByte 5) (framed .selSubscriber [] noDesig office)
    (fun t => t.port.frame.map (fun f => f.args) = some [5]) := by decide
/-- R161. -/
theorem test_unknownCommandCode : runs (.unknownCommandCode 0x09) office (fun t => t.port.result = [0x07]) := by decide
/-- R164. -/
theorem test_selSubscriber : runs (.selSubscriber (.last 0xE8)) (framed .selSubscriber [0, 3] noDesig office)
    (fun t => t.port.latch.sub = some 1000 && t.port.result = [0, 1]) := by decide
theorem test_selSubscriber_code : runs (.selSubscriber .code) office
    (fun t => t.port.frame.map (fun f => f.cmd) = some .selSubscriber && t.port.ready = false) := by decide
theorem test_selAccount : runs (.selAccount (.last 0)) (framed .selAccount [4] noDesig office)
    (fun t => t.port.latch.acct = none && t.port.result = [7]) := by decide
theorem test_selPage : runs (.selPage (.last 1)) (framed .selPage [0] noDesig (latched (pageDesig tag0) office))
    (fun t => t.port.result = [0, 0]) := by decide
theorem test_selClear : runs .selClear (latched (subDesig 7) office)
    (fun t => t.port.latch = noDesig && t.port.result = [0]) := by decide
/-- R160. -/
theorem test_portWidth : runs (.portWidth (.last 1)) (framed .portWidth [] noDesig office)
    (fun t => t.port.fourBit && t.port.nibble = none) := by decide
/-- R166. -/
theorem test_noticeEnable : runs (.noticeEnable (.last 0xFF)) (framed .noticeEnable [] noDesig office)
    (fun t => t.port.enables = 0x7F) := by decide
theorem test_noticeClear :
    runs (.noticeClear (.last 0x41)) (framed .noticeClear [] noDesig { office with port := { freshPort with causes := 0x43 } })
      (fun t => t.port.causes = 0x02) := by decide
theorem test_noticeRead : runs .noticeRead { office with port := { freshPort with causes := 0x43 } }
    (fun t => t.port.result = [0, 0x43, 0]) := by decide
/-- R9. -/
theorem test_addSubscriber :
    runs (.addSubscriber (.last 1)) (framed .addSubscriber [0, 0, 1, 2] (bothDesig 999 5) office)
      (fun t => t.port.result = [0] && t.op.isSome && t.directory.length = 1) := by decide
theorem test_addSubscriber_duplicate :
    runs (.addSubscriber (.last 1)) (framed .addSubscriber [0, 0, 1, 2] (bothDesig 1000 5) office)
      (fun t => t.port.result = [3] && t.op = none) := by decide
/-- R8. -/
theorem test_readSubscriber : runs .readSubscriber (latched (subDesig 999) office)
    (fun t => t.port.result = 0x02 :: List.replicate 19 0xFF) := by decide
/-- R11. -/
theorem test_writeField : runs (.writeField (.last 15)) (framed .writeField [4] (subDesig 1000) office)
    (fun t => t.directory.map (fun r => (r.homeZone, r.zone)) = [(3, 15)]) := by decide
/-- R12: the designated account is UNUSED. -/
theorem test_linkAccount : runs .linkAccount (latched (bothDesig 1000 6) office)
    (fun t => t.port.result = [8] && t.directory = [pager]) := by decide
/-- R13. -/
theorem test_suspend : runs .suspend (latched (subDesig 1000) office)
    (fun t => t.directory.map (fun r => r.state) = [.suspended]) := by decide
theorem test_resume : runs .resume (latched (subDesig 1000) { office with directory := [{ pager with state := .retiring }] })
    (fun t => t.directory.map (fun r => r.state) = [.active]) := by decide
/-- R14. -/
theorem test_retire : runs .retire (latched (subDesig 1000) office)
    (fun t => t.port.result = [0, 0] && t.op = some (.removal 1000 false)) := by decide
/-- R19. -/
theorem test_cursorSet : runs (.cursorSet (.last 1)) (framed .cursorSet [0, 3, 0xE8] noDesig office)
    (fun t => t.cursorKey = 1000 && t.cursorMode = .backward) := by decide
/-- R20. -/
theorem test_cursorRead : runs .cursorRead { office with cursorKey := 1000 }
    (fun t => t.cursorKey = 1001 && t.port.result.take 4 = [0, 0, 3, 0xE8]) := by decide
theorem test_cursorReadMarked : runs .cursorReadMarked office
    (fun t => t.cursorKey = 0 && t.port.result.head? = some 2) := by decide
/-- R21. -/
theorem test_markMode : runs (.markMode (.last 2)) (framed .markMode [] noDesig office)
    (fun t => t.markMode = .clear) := by decide
/-- R18. -/
theorem test_partition : runs (.partition (.last 4)) (framed .partition [] noDesig office)
    (fun t => t.port.result = [7] && t.op = none) := by decide
/-- R25. -/
theorem test_memoryStatus : runs .memoryStatus { office with cursorKey := -1 }
    (fun t => t.port.result = [0, 0, 0x10, 0, 0, 1, 2, 0, 0, 4, 0, 0, 0xFF, 0xFF, 0xFF, 0]) := by decide
/-- R28: balance -500 with CL 100 opens in overrun. -/
theorem test_openAccount :
    runs (.openAccount (.last 100)) (framed .openAccount [0xFF, 0xFE, 0x0C, 0] (acctDesig 6) office)
      (fun t => (t.acct 6).balance = -500 && (t.acct 6).overrun && t.port.causes = 0x02) := by decide
/-- R29. -/
theorem test_bar : runs .bar (latched (acctDesig 5) office)
    (fun t => (t.acct 5).state = .barred && (t.acct 5).mark) := by decide
theorem test_unbar : runs .unbar (latched (acctDesig 6) office) (fun t => t.port.result = [5]) := by decide
/-- R30: 500 - 601 = -101 is below -100. -/
theorem test_adjustBalance :
    runs (.adjustBalance (.last 0xA7)) (framed .adjustBalance [0xFF, 0xFD] (acctDesig 5) office)
      (fun t => (t.acct 5).balance = -101 && (t.acct 5).overrun && t.port.result = [0, 0xFF, 0xFF, 0x9B, 0]) := by
  decide
/-- R31. -/
theorem test_writeLimit : runs (.writeLimit (.last 2)) (framed .writeLimit [1] (acctDesig 5) office)
    (fun t => (t.acct 5).cl = 258) := by decide
/-- R32. -/
theorem test_closeAccount : runs .closeAccount (latched (acctDesig 5) office)
    (fun t => t.port.result = [8] && (t.acct 5) = account) := by decide
/-- R33. -/
theorem test_readAccount : runs .readAccount (latched (acctDesig 5) office)
    (fun t => t.port.result.take 10 = [0, 1, 0, 1, 0xF4, 0, 100, 0, 0, 0]) := by decide
/-- R40. -/
theorem test_tablePointer : runs (.tablePointer (.last 0xFF)) (framed .tablePointer [7] noDesig office)
    (fun t => t.tablePtr = 2047) := by decide
/-- R40, R38: the fields P, F, S of row 0 and the wrap of the pointer. -/
theorem test_tableRead : runs (.tableRead (.last 3)) (framed .tableRead [] noDesig { office with tablePtr := 2 })
    (fun t => t.port.result = [0, 2, 32, 2] && t.tablePtr = 5) := by decide
/-- R38: U is clamped to 4. -/
theorem test_tableWrite :
    runs (.tableWrite (.last 9)) (framed .tableWrite [1] noDesig { office with tablePtr := 1 })
      (fun t => t.setting 1 = 4 && t.tablePtr = 2) := by decide
/-- R75. -/
theorem test_lineEnable : runs (.lineEnable (.last 0)) (framed .lineEnable [] noDesig office)
    (fun t => (t.line 0).state = .idle) := by decide
/-- R76. -/
theorem test_lineDisable :
    runs (.lineDisable (.last 0)) (framed .lineDisable [] noDesig (lined { freshLine with state := .idle, fifo := [1] } office))
      (fun t => (t.line 0).state = .disabled && (t.line 0).fifo = []) := by decide
theorem test_lineFlush : runs (.lineFlush (.last 0)) (framed .lineFlush [] noDesig office)
    (fun t => t.port.result = [5]) := by decide
/-- R75: a DISABLED line holds its sender. -/
theorem test_lineStatus : runs (.lineStatus (.last 0)) (framed .lineStatus [] noDesig office)
    (fun t => t.port.result.take 4 = [0, 0, 0, 1]) := by decide
theorem test_lineClear :
    runs (.lineClear (.last 4)) (framed .lineClear [0] noDesig (lined { freshLine with junk := 7, accepted := 8 } office))
      (fun t => (t.line 0).junk = 0 && (t.line 0).accepted = 8) := by decide
/-- R94. -/
theorem test_pageStatus : runs .pageStatus (latched (pageDesig { slot := 0, gen := 0 }) office)
    (fun t => t.port.result = [9]) := by decide
/-- R95: no attempt made, so the refund is the whole charge. -/
theorem test_cancelPage : runs .cancelPage (latched (pageDesig tag0) queuedA)
    (fun t => t.port.result = [0, 1, 0, 10] && (t.chan .A).normal = []) := by decide
/-- R97: the fifth header byte of a page of no text hands in its request. -/
theorem test_submitPage : runs (.submitPage (.last 0)) (framed .submitPage [0, 0, 3, 0xE8] noDesig office)
    (fun t => t.lookups.length = 1 && t.port.frame.map (fun f => f.outcome) = some .outstanding) := by decide
/-- R100. -/
theorem test_purgeTraffic : runs .purgeTraffic office
    (fun t => t.port.result = [0] && t.op = some (.purge 0)) := by decide
/-- R103. -/
theorem test_setClock : runs (.setClock (.last 4)) (framed .setClock [1, 2, 3] noDesig office)
    (fun t => t.time = 16909060 && t.head = 0) := by decide
theorem test_readClock : runs .readClock { holding (page .waiting) with time := 258, head := 5 }
    (fun t => t.port.result = [0, 0, 0, 1, 2, 5, 0, 1, 0, 0]) := by decide +kernel
/-- R132. -/
theorem test_channelOpen : runs (.channelOpen (.last 1)) (framed .channelOpen [] noDesig State.reset)
    (fun t => (t.chan .B).state = .opened && (t.chan .A).state = .closed) := by decide
theorem test_channelDrain : runs (.channelDrain (.last 0)) (framed .channelDrain [] noDesig State.reset)
    (fun t => t.port.result = [5]) := by decide
theorem test_channelClose : runs (.channelClose (.last 0)) (framed .channelClose [] noDesig queuedA)
    (fun t => (t.chan .A).state = .closed && t.wheelList 1 = [tag0]) := by decide
/-- R133. -/
theorem test_channelStatus : runs (.channelStatus (.last 0)) (framed .channelStatus [] noDesig (airedA aired))
    (fun t => t.port.result = [0, 0, 0, 0, 0, 1, 0, 1, 0, 0]) := by decide
theorem test_channelClear :
    runs (.channelClear (.last 0)) (framed .channelClear [] noDesig (office.setChan .A { freshChannel with stray := 3 }))
      (fun t => (t.chan .A).stray = 0) := by decide
/-- R144: the receiver of input 1 is A, zone 1 (R138). -/
theorem test_answerBackStatus : runs (.answerBackStatus (.last 1)) (framed .answerBackStatus [] noDesig office)
    (fun t => t.port.result = [0, 0, 0, 0xFF, 0xFF, 0xFF, 0xFF, 0xFF, 0, 1, 0, 0, 0, 0, 0, 0, 3]) := by decide
theorem test_answerBackClear :
    runs (.answerBackClear (.last 2)) (framed .answerBackClear [0] noDesig
        (office.setAbSlot 0 { freshAbSlot with stray := 1, cross := 1 }))
      (fun t => (t.abSlot 0).stray = 1 && (t.abSlot 0).cross = 0) := by decide
/-- R151. -/
theorem test_monitorEnable : runs .monitorEnable (office.setMon .B { freshMonitor with level := 2, activity := 9 })
    (fun t => t.mon .B = freshMonitor && t.port.causes = 0x01) := by decide
/-- R152. -/
theorem test_monitorDisable : runs .monitorDisable (office.setMon .B { freshMonitor with level := 2, activity := 9 })
    (fun t => (t.mon .B).level = 0 && (t.mon .B).activity = 9 && t.monitorOn = false) := by decide
/-- R153. -/
theorem test_monitorStatus : runs .monitorStatus office
    (fun t => t.port.result.take 7 = [0, 1, 0, 0, 1, 1, 1] && t.port.result.length = 25) := by decide
/-- R155. -/
theorem test_settleBegin : runs .settleBegin { office with settleCursor := 1024 }
    (fun t => t.settleCursor = 0 && t.port.result = [0]) := by decide
/-- R156. -/
theorem test_settleRead : runs .settleRead (holding (page .waiting))
    (fun t => t.settleCursor = 6 && (t.acct 5).accepted = 0 && (t.acct 5).mark = false && (t.acct 5).held = 10) := by
  decide +kernel
/-- R160: D3..D0 are driven 0. -/
theorem test_pendingNibble :
    runs (.pendingNibble false true 0) { office with port := { freshPort with fourBit := true, result := [0xA5], ready := true } }
      (fun t => t.out.data = 0xA0 && t.port.readIdx = 0
        && t.port.nibble = some { write := false, cd := true, value := 5 }) := by decide
/-- R170. -/
theorem test_unknownReportKind : runs (.unknownReportKind .A 3 0 1) (airedA aired)
    (fun t => (t.chan .A).stray = 1 && (t.chan .A).outstanding = [tag0]) := by decide
/-- R171. -/
theorem test_markedByteRestart :
    runs (.markedByteRestart 0 2) (office.setAbSlot 0 { freshAbSlot with rx := [1, 1, 1] })
      (fun t => (t.abSlot 0).rx = [2]) := by decide

/-! ## The manual's worked figures -/

/-- R46: the examples at 255, 4, 63, 0 with 240 characters, URGENT: 4,053 at 33, and 4,095 at 34. -/
theorem test_charge_examples :
    chargeOf 255 4 63 0 240 .urgent 33 = 4053 ∧ chargeOf 255 4 63 0 240 .urgent 34 = 4095 := by decide
/-- R54: with k = 15 and base 1,023 the product is formed and then limited by the cap. -/
theorem test_window_limit : windowOf 1023 240 15 false 16 = 240 := by decide

/-! ## States that meet the hypotheses of the statements -/

/-- Nothing of the office has a tick still to take. -/
theorem office_settled : (∀ n, (office.line n).tickDue = false) ∧ (∀ c, (office.mon c).sampleDue = false) := by
  refine ⟨by decide, fun c => by cases c <;> rfl⟩

theorem witness_StepTakesTheFront :
    ({ office with pending := [.tick] }).pending = .tick :: [] ∧ office.pending = [] := by decide

theorem witness_MeaningsLeaveTheQueue : ∃ t, exec .selClear office = .next t := ⟨_, rfl⟩

theorem witness_PowerOnAndAutoclear :
    (during .autoclear office).op = some .autoclear ∧
    (((during .autoclear office).setAbSlot 3 { freshAbSlot with rx := [1, 2, 3, 4] }).abSlot 3).rx.length = 4 := by
  decide

theorem witness_CodeOpensItsFrame :
    (cmdArgs .selSubscriber ≠ 0 ∧ office.byteReady true false (cmdCode .selSubscriber) ∧ office.op = none ∧
      office.port.frame = none) ∧
    (cmdArgs .tableWrite ≠ 0 ∧ (nibbled true false 2 office).byteReady true false (cmdCode .tableWrite) ∧
      (nibbled true false 2 office).op = none ∧ (nibbled true false 2 office).port.frame = none) := by decide

theorem witness_CodesOverAnOpenFrame :
    (let s := during (.purge 3) (framed .selPage [] noDesig office)
     s.byteReady true false (cmdCode .bar) ∧ s.op ≠ none) ∧
    office.port.frame = none ∧
    (∃ f, (framed .selPage [] noDesig office).port.frame = some f ∧ f.outcome = .none) ∧
    (∃ f : Frame, f.outcome = .refused .foreign 15 ∧
      (office.setFrame (some f)).port.frame = some f) ∧
    (∃ f : Frame, f.outcome = .outstanding ∧ (office.setFrame (some f)).port.frame = some f) ∧
    (∃ f : Frame, f.outcome = .admitted tag0 63 ∧ (office.setFrame (some f)).port.frame = some f) ∧
    (let s := framed .selPage [] noDesig office
     s.port.frame ≠ none ∧ s.dropFrame.op = none ∧ cmdArgs .selClear = 0 ∧ cmdArgs .selPage ≠ 0 ∧
      s.byteReady true false (cmdCode .selClear) ∧ s.byteReady true false (cmdCode .selPage)) := by
  refine ⟨by decide, rfl, ⟨_, rfl, rfl⟩, ⟨⟨.submitPage, [], false, noDesig, _⟩, rfl, rfl⟩,
    ⟨⟨.submitPage, [], false, noDesig, _⟩, rfl, rfl⟩, ⟨⟨.submitPage, [], false, noDesig, _⟩, rfl, rfl⟩, by decide⟩

theorem witness_MisqualifiedAndBusyFrames :
    (operative .bar = true ∧ cmdArgs .bar = 0 ∧ (latched (subDesig 7) office).byteReady true false (cmdCode .bar) ∧
      (latched (subDesig 7) office).op = none ∧ (latched (subDesig 7) office).port.frame = none ∧
      latchMatches .bar (latched (subDesig 7) office).port.latch = false) ∧
    (let f : Frame := { cmd := .writeField, args := [0], misq := true, desig := noDesig, outcome := .none }
     let s := during (.purge 3) (office.setFrame (some f))
     lastRow .writeField 7 = some (.writeField (.last 7)) ∧ s.byteReady true true 7 ∧ s.port.frame = some f ∧
      f.cmd = .writeField ∧ argsComplete .writeField (f.args ++ [7]) = true ∧ (cmdCode .writeField).toNat < 0x2A) ∧
    (let f : Frame := { cmd := .tableWrite, args := [1], misq := false, desig := noDesig, outcome := .none }
     let s := during (.purge 3) (office.setFrame (some f))
     lastRow .tableWrite 7 = some (.tableWrite (.last 7)) ∧ s.byteReady true true 7 ∧ s.port.frame = some f ∧
      f.cmd = .tableWrite ∧ argsComplete .tableWrite (f.args ++ [7]) = true ∧ s.op ≠ none ∧
      cmdCode .tableWrite = 0x2A) ∧
    (let f : Frame := { cmd := .lineEnable, args := [], misq := false, desig := noDesig, outcome := .none }
     let s := during (.purge 3) (office.setFrame (some f))
     lastRow .lineEnable 0 = some (.lineEnable (.last 0)) ∧ s.byteReady true true 0 ∧ s.port.frame = some f ∧
      f.cmd = .lineEnable ∧ argsComplete .lineEnable (f.args ++ [0]) = true ∧ s.op ≠ none ∧
      0x30 ≤ (cmdCode .lineEnable).toNat ∧ cmdCode .lineEnable ≠ 0x42) := by
  decide

theorem witness_ArgumentAndUnknownBytes :
    (office.byteReady true true 5 ∧ office.port.frame = none) ∧
    (∃ f, (framed .submitPage [1, 0, 0] noDesig office).port.frame = some f ∧
      argsComplete f.cmd (f.args ++ [5]) = false ∧ argsComplete f.cmd f.args = false ∧ f.args.length < 4) ∧
    (∃ f : Frame, (office.setFrame (some f)).port.frame = some f ∧ argsComplete f.cmd (f.args ++ [5]) = false ∧
      argsComplete f.cmd f.args = false ∧ f.misq = true) ∧
    (∀ o ∈ ([.outstanding, .refused .foreign 15, .admitted tag0 0] : List SubmitOutcome),
      let f : Frame := { cmd := .submitPage, args := [2, 0, 3, 0xE8, 20] ++ List.replicate 18 0x41
                         misq := false, desig := noDesig, outcome := o }
      let s := (holding (page .assembling)).setFrame (some f)
      s.byteReady true true 0x42 ∧ s.port.frame = some f ∧ f.args.length - 5 + 1 < (f.args.getD 4 0).toNat ∧
        s.entry tag0 = some (page .assembling) ∧ (page .assembling).blocks[18 / 16]? = some 1 ∧
        4096 - 512 * s.partition + 1 < 4608) ∧
    (let f : Frame := { cmd := .submitPage, args := [2, 0, 3, 0xE8, 1, 0x41], misq := false, desig := noDesig
                        outcome := .outstanding }
     (office.setFrame (some f)).port.frame = some f ∧ f.args.length - 5 = (f.args.getD 4 0).toNat) ∧
    ((∀ c, cmdCode c ≠ 0xFF) ∧ office.byteReady true false 0xFF) := by
  refine ⟨by decide, ⟨_, rfl, by decide⟩,
    ⟨⟨.submitPage, [1, 0, 0, 0, 2], true, noDesig, .none⟩, rfl, by decide⟩, by decide, by decide, ⟨?_, by decide⟩⟩
  intro c
  cases c <;> decide

theorem witness_SubmitPageHandsIn :
    (∀ n : Byte, (framed .submitPage [0, 0, 3, 0xE8] noDesig office).lastArrives .submitPage [0, 0, 3, 0xE8] n noDesig) ∧
    (240 < (241 : Byte).toNat) ∧ ((240 : Byte).toNat ≤ 240) ∧ ((0 : Byte).toNat ≤ 240) ∧
    (framed .submitPage [0, 0, 3, 0xE8] noDesig office).disposition 1000 = .localOffice ∧
    (framed .submitPage [0, 0, 3, 0xE8] noDesig { office with settings := [(0x140, 1), (0x141, 15)] }).disposition 1000
      = .foreign 15 ∧
    (framed .submitPage [0, 0, 3, 0xE8] noDesig { office with settings := [(0x140, 2)] }).disposition 1000
      = .blocked := by
  exact ⟨fun n => ⟨.inl rfl, rfl⟩, by decide⟩

theorem witness_ReadsAndNibbles :
    (let s : State := { office with port := { freshPort with result := [7, 9], readIdx := 1, ready := true } }
     s.port.fourBit = false ∧ s.port.result = [7] ++ 9 :: [] ∧ s.port.readIdx = [(7 : Byte)].length) ∧
    (office.port.fourBit = false ∧ office.port.result.length ≤ office.port.readIdx) ∧
    (let s : State := { office with port := { freshPort with fourBit := true } }
     s.port.fourBit = true ∧ (∀ n, s.port.nibble = some n → n.write = false ∨ n.cd ≠ true)) ∧
    (let s := nibbled true true 9 office
     s.port.fourBit = true ∧ (∀ n, s.port.nibble = some n → n.write = true ∨ n.cd ≠ true) ∧
      (0 : Byte) = s.port.result.getD s.port.readIdx 0) ∧
    (let s := nibbled false true 9 office
     s.port.fourBit = true ∧ s.port.nibble = some { write := false, cd := true, value := 9 }) ∧
    (let s : State := { office with port := { freshPort with fourBit := true, ready := true, result := [7] } }
     s.port.fourBit = true ∧ s.port.nibble = none ∧ (0x0A : Byte).getLsbD 0 = s.op.isSome ∧
      (0x0A : Byte).getLsbD 1 = s.port.ready ∧ (0x0A : Byte).getLsbD 3 = true) := by
  refine ⟨by decide, by decide, ⟨rfl, by simp [freshPort]⟩, ⟨rfl, ?_, rfl⟩, by decide, by decide⟩
  intro n hn
  cases hn
  exact .inl rfl

theorem witness_PortResetClearsThePort : ∃ t, exec .portReset office = .next t := ⟨_, rfl⟩

theorem witness_SelectorsWidthAndNotices :
    (framed .selSubscriber [0x3F, 0xFF] noDesig office).lastArrives .selSubscriber [0x3F, 0xFF] 0xFF noDesig ∧
    (framed .selSubscriber [0x40, 0] noDesig office).lastArrives .selSubscriber [0x40, 0] 0 noDesig ∧
    (framed .selAccount [3] noDesig office).lastArrives .selAccount [3] 0xFF noDesig ∧
    (framed .selAccount [4] noDesig office).lastArrives .selAccount [4] 0 noDesig ∧
    (framed .selPage [0] noDesig office).lastArrives .selPage [0] 0xFF noDesig ∧
    (office.byteReady true false 0x04 ∧ office.op = none ∧ office.port.frame = none) ∧
    (framed .portWidth [] noDesig office).lastArrives .portWidth [] 1 noDesig ∧
    (framed .portWidth [] noDesig office).lastArrives .portWidth [] 2 noDesig ∧
    (framed .noticeEnable [] noDesig office).lastArrives .noticeEnable [] 0xFF noDesig ∧
    (framed .noticeClear [] noDesig office).lastArrives .noticeClear [] 0xFF noDesig ∧
    office.byteReady true false 0x08 ∧ office.port.causes.getLsbD 7 = false := by decide

theorem witness_AddSubscriberChecks :
    (framed .addSubscriber [7, 7, 1, 15] (bothDesig 999 5) office).lastArrives .addSubscriber [7, 7, 1, 15] 1
      (bothDesig 999 5) ∧
    (framed .addSubscriber [8, 7, 1, 15] (bothDesig 1000 6) (during (.purge 3) office)).lastArrives .addSubscriber
      [8, 7, 1, 15] 2 (bothDesig 1000 6) := by decide

theorem witness_ReadSubscriberAndMemoryStatus :
    ((latched (subDesig 1000) office).codeArrives .readSubscriber (subDesig 1000) ∧
      (latched (subDesig 1000) office).record 1000 = some pager) ∧
    ((latched (subDesig 999) office).codeArrives .readSubscriber (subDesig 999) ∧
      (latched (subDesig 999) office).record 999 = none) ∧
    office.codeArrives .memoryStatus noDesig := by decide

theorem witness_WriteFieldAndLinkAccount :
    (let s := framed .writeField [3] (subDesig 1000) office
     s.lastArrives .writeField [3] 15 (subDesig 1000) ∧ s.op = none ∧ s.record 1000 = some pager ∧
      pager.state ≠ .retiring ∧ (15 : Byte).toNat ≤ 15) ∧
    (let s := framed .writeField [3] (subDesig 999) office
     s.lastArrives .writeField [3] 16 (subDesig 999) ∧ s.record 999 = none ∧ ¬(16 : Byte).toNat ≤ 15) ∧
    (let s := framed .writeField [0] (subDesig 1000)
        { during (.purge 3) office with directory := [{ pager with state := .retiring }] }
     s.lastArrives .writeField [0] 7 (subDesig 1000) ∧ s.op ≠ none ∧
      (s.record 1000).map (fun r => r.state) = some .retiring) ∧
    (let s := latched (bothDesig 1000 5) office
     s.codeArrives .linkAccount (bothDesig 1000 5) ∧ s.record 1000 = some pager ∧ (s.acct 5).state ≠ .unused) ∧
    (let s := latched (bothDesig 1000 6) office
     s.codeArrives .linkAccount (bothDesig 1000 6) ∧ s.record 1000 = some pager ∧ (s.acct 6).state = .unused) ∧
    (let s := latched (bothDesig 999 5) office
     s.codeArrives .linkAccount (bothDesig 999 5) ∧ s.record 999 = none) ∧
    (let s := latched (bothDesig 1000 5) { office with directory := [{ pager with state := .retiring }] }
     s.codeArrives .linkAccount (bothDesig 1000 5) ∧
      (s.record 1000).map (fun r => r.state) = some .retiring) := by decide

theorem witness_RecordStateCommands :
    (let s := latched (subDesig 1000) office
     s.codeArrives .suspend (subDesig 1000) ∧ s.codeArrives .resume (subDesig 1000) ∧
      s.codeArrives .retire (subDesig 1000) ∧ s.record 1000 = some pager ∧ pager.state ≠ .retiring ∧
      pager.live = 0) ∧
    (let s := latched (subDesig 999) office
     s.codeArrives .suspend (subDesig 999) ∧ s.codeArrives .resume (subDesig 999) ∧
      s.codeArrives .retire (subDesig 999) ∧ s.record 999 = none) ∧
    (let s := latched (subDesig 1000) { office with directory := [{ pager with state := .retiring }] }
     s.codeArrives .suspend (subDesig 1000) ∧ s.codeArrives .retire (subDesig 1000) ∧
      (s.record 1000).map (fun r => r.state) = some .retiring) ∧
    (let s := latched (subDesig 1000) (holding (page .waiting))
     s.codeArrives .retire (subDesig 1000) ∧ (s.record 1000).map (fun r => (r.state, r.live)) = some (.active, 1)) := by
  decide

theorem witness_CursorAndMarks :
    (framed .cursorSet [0x3F, 0xFF, 0xFF] noDesig office).lastArrives .cursorSet [0x3F, 0xFF, 0xFF] 2 noDesig ∧
    (framed .cursorSet [0x40, 0, 0] noDesig office).lastArrives .cursorSet [0x40, 0, 0] 0 noDesig ∧
    (framed .markMode [] noDesig office).lastArrives .markMode [] 2 noDesig ∧
    (framed .markMode [] noDesig office).lastArrives .markMode [] 3 noDesig ∧
    office.directory.Pairwise (fun p q => p.addr < q.addr) ∧
    office.codeArrives .cursorRead noDesig ∧ office.codeArrives .cursorReadMarked noDesig ∧
    (pager ∈ office.directory ∧ office.cursorMode ≠ .backward ∧ office.cursorKey ≤ (pager.addr : Int)) ∧
    (let s : State := { office with cursorKey := 1000, cursorMode := .backward }
     s.codeArrives .cursorRead noDesig ∧ (pager.addr : Int) ≤ s.cursorKey) ∧
    (∀ q ∈ office.directory, ¬(q.mark = true)) := by decide

theorem witness_PartitionChecksAndRebuild :
    (framed .partition [] noDesig office).lastArrives .partition [] 3 noDesig ∧
    (framed .partition [] noDesig office).lastArrives .partition [] 4 noDesig ∧
    (during (.rebuild 3) office).op = some (.rebuild 3) := by decide

theorem witness_AdditionAndRemovalComplete :
    ((during (.addition { pager with addr := 999 }) office).op = some (.addition { pager with addr := 999 }) ∧
      office.directory.Pairwise (fun p q => p.addr < q.addr) ∧ ∀ q ∈ office.directory, q.addr ≠ 999) ∧
    ((during (.removal 1000 true) office).op = some (.removal 1000 true) ∧
      (during (.removal 1000 true) office).record 1000 = some pager) := by decide

theorem witness_AccountFigures :
    ((framed .openAccount [0x80, 0, 0, 0] (acctDesig 6) office).lastArrives .openAccount [0x80, 0, 0, 0] 0 (acctDesig 6) ∧
      (office.acct 6).state = .unused ∧ (office.acct 5).state ≠ .unused) ∧
    (framed .writeLimit [0xFF] (acctDesig 5) office).lastArrives .writeLimit [0xFF] 0xFF (acctDesig 5) ∧
    (framed .adjustBalance [0x7F, 0xFF] (acctDesig 5) office).lastArrives .adjustBalance [0x7F, 0xFF] 0xFF
      (acctDesig 5) ∧
    (framed .openAccount [0, 0, 0, 0] (acctDesig 5) office).lastArrives .openAccount [0, 0, 0, 0] 0 (acctDesig 5) ∧
    (framed .writeLimit [0] (acctDesig 6) office).lastArrives .writeLimit [0] 0 (acctDesig 6) ∧
    (framed .adjustBalance [0x80, 0] (acctDesig 6) office).lastArrives .adjustBalance [0x80, 0] 0 (acctDesig 6) := by
  decide

theorem witness_BarCloseAndReadAccount :
    (let s := latched (acctDesig 5) office
     s.codeArrives .bar (acctDesig 5) ∧ s.codeArrives .unbar (acctDesig 5) ∧ (s.acct 5).state = .opened ∧
      s.codeArrives .closeAccount (acctDesig 5) ∧ s.codeArrives .readAccount (acctDesig 5) ∧ 0 < (s.acct 5).refs) ∧
    (let s := latched (acctDesig 5) (office.setAcct 5 { account with state := .barred, refs := 0 })
     s.codeArrives .bar (acctDesig 5) ∧ s.codeArrives .unbar (acctDesig 5) ∧ (s.acct 5).state = .barred ∧
      s.codeArrives .closeAccount (acctDesig 5) ∧ (s.acct 5).refs = 0 ∧ (s.acct 5).held = 0) ∧
    (let s := latched (acctDesig 1023) office
     s.codeArrives .bar (acctDesig 1023) ∧ s.codeArrives .unbar (acctDesig 1023) ∧
      s.codeArrives .closeAccount (acctDesig 1023) ∧ (s.acct 1023).state = .unused) := by decide

theorem witness_SettleBeginRestartsTheSweep : office.codeArrives .settleBegin noDesig := by decide

/-- Account 1,023 marked, with the sweep at it. -/
def lastMarked : State :=
  { office with accounts := [(1023, { account with mark := true })], settleCursor := 1023 }

theorem witness_SettleReadSweeps :
    (lastMarked.codeArrives .settleRead noDesig ∧ lastMarked.settleCursor ≤ 1023 ∧
      (lastMarked.acct 1023).mark = true ∧
      ∀ j, lastMarked.settleCursor ≤ j → j < 1023 → (lastMarked.acct j).mark = false) ∧
    (let s : State := { office with settleCursor := 1024 }
     s.codeArrives .settleRead noDesig ∧
      ∀ j, s.settleCursor ≤ j → j < 1024 → (s.acct j).mark = false) := by
  refine ⟨⟨by decide, by decide, by decide, ?_⟩, by decide, ?_⟩
  · intro j h1 h2
    simp only [lastMarked] at h1
    omega
  · intro j h1 h2
    simp only at h1
    omega

theorem witness_TablePointerReadAndWrite :
    (framed .tablePointer [7] noDesig office).lastArrives .tablePointer [7] 0xFF noDesig ∧
    (framed .tablePointer [8] noDesig office).lastArrives .tablePointer [8] 0 noDesig ∧
    (framed .tableRead [] noDesig office).lastArrives .tableRead [] 64 noDesig ∧
    (framed .tableRead [] noDesig office).lastArrives .tableRead [] 0 noDesig ∧
    (framed .tableWrite [] noDesig office).lastArrives .tableWrite [] 65 noDesig ∧
    ((framed .tableWrite [2, 7] noDesig office).lastArrives .tableWrite (2 :: [7]) 9 noDesig ∧ office.op = none ∧
      (2 : Byte).toNat = ([7] : List Byte).length + 1) ∧
    (fieldAt 2047 = none ∧ fieldAt 0x33 ≠ none ∧ fieldAt 0x38 = none ∧ fieldAt 0x41 ≠ none ∧
      fieldAt 0x187 ≠ none ∧ fieldAt 0x188 = none) ∧
    (0x186 = 0x180 + 2 * (3 : LineNo).val) := by decide

theorem witness_WatermarkAndEnableWrites :
    (let s := framed .tableWrite [1] noDesig { office with tablePtr := 0x34 }
     s.op = none ∧ s.tablePtr = 0x34 ∧ s.lastArrives .tableWrite [1] 8 noDesig) ∧
    (let s := framed .tableWrite [2, 8] noDesig { office with tablePtr := 0x34 }
     s.op = none ∧ s.tablePtr = 0x34 ∧ s.lastArrives .tableWrite [2, 8] 1 noDesig) ∧
    (let s := framed .tableWrite [1] noDesig { office with tablePtr := 0x170 }
     s.op = none ∧ s.tablePtr = 0x16D + 3 ∧ s.lastArrives .tableWrite [1] 0 noDesig) ∧
    (let s := framed .tableWrite [1] noDesig { office with tablePtr := 0x171, monitorOn := false }
     s.op = none ∧ s.tablePtr = 0x171 ∧ s.lastArrives .tableWrite [1] 3 noDesig) ∧
    ((fieldAt 0x34).map (fun f => (f.first, f.width)) = some (0x34, 2) ∧
      (fieldAt 0xC3).map (fun f => (f.first, f.width)) = some (0xC1, 3)) ∧
    (let s : State := { office with tablePtr := 0xC3, staging := some { first := 0xC1, bytes := [0, 3] } }
     s.staging = some { first := 0xC1, bytes := [0, 3] } ∧ 0xC1 + ([0, 3] : List Byte).length = s.tablePtr) ∧
    (let s : State := { office with tablePtr := 0xC3, staging := some { first := 0xC1, bytes := [0] } }
     s.tablePtr ≠ 0xC1 ∧ (∀ st, s.staging = some st → st.first ≠ 0xC1 ∨ st.bytes.length ≠ s.tablePtr - 0xC1)) := by
  refine ⟨by decide, by decide, by decide, by decide, by decide, by decide, by decide, ?_⟩
  intro st h
  cases h
  decide

theorem witness_IntakeBytesAndIdle :
    (office.op ≠ some .autoclear ∧ (office.line 3).state = .disabled) ∧
    (let s := lined { freshLine with state := .idle, fifo := List.replicate 63 0x7E } office
     s.op ≠ some .autoclear ∧ (s.line 0).state ≠ .disabled ∧
      (s.line 0).fifo.length < 64) ∧
    (let s := lined { freshLine with state := .idle, fifo := List.replicate 64 0x7E } office
     (s.line 0).state ≠ .disabled ∧ (s.line 0).fifo.length = 64) ∧
    (let s := lined { freshLine with state := .idle, fifo := [0x7E] } office
     (s.line 0).state = .idle ∧ (s.line 0).fifo = 0x7E :: [] ∧
      8 ≤ s.threshold 0 ∧ (s.line 0).receipt = none ∧ s.poolHold = false) ∧
    (let s := lined { freshLine with state := .idle, fifo := [0x7F] } office
     (s.line 0).fifo = 0x7F :: [] ∧ (0x7F : Byte) ≠ 0x7E) ∧
    (let s := lined { freshLine with state := .idle, fifo := [0x7E], receipt := some (.refused .timeout 0) } office
     (s.line 0).fifo = 0x7E :: [] ∧ (s.line 0).receipt ≠ none) := by decide

theorem witness_HeaderBytesAndRouting :
    (let s := lined { freshLine with state := .header, fifo := [241], header := [0, 0, 3] } office
     (s.line 0).state = .header ∧ (s.line 0).fifo = 241 :: [] ∧
      8 ≤ s.threshold 0 ∧ (s.line 0).header.length ≠ 4) ∧
    (let s := lined { freshLine with state := .header, fifo := [241], header := [0, 0, 3, 0xE8] } office
     (s.line 0).header.length = 4 ∧ (s.line 0).fifo = 241 :: [] ∧ 240 < (241 : Byte).toNat) ∧
    (let s := lined { freshLine with state := .header, fifo := [240], header := [0, 0, 3, 0xE8] } office
     (s.line 0).header.length = 4 ∧ (s.line 0).fifo = 240 :: [] ∧ (240 : Byte).toNat ≤ 240 ∧
      s.disposition 1000 = .localOffice) ∧
    (let s := lined { freshLine with state := .header, fifo := [240], header := [0, 0, 3, 0xE8] }
        { office with settings := [(0xC0, 1), (0xC1, 1000), (0xC4, 1000), (0xC7, 1), (0xC8, 15)] }
     s.disposition (headerOf [0, 0, 3, 0xE8, 240]).addr = .foreign 15 ∧
      (s.setting 0xC0 = 1 ∧ s.setting 0xC1 ≤ 1000 ∧ 1000 ≤ s.setting 0xC4)) ∧
    (let s := lined { freshLine with state := .header, fifo := [240], header := [0, 0, 3, 0xE8] }
        { office with settings := [(0x140, 2)] }
     s.disposition (headerOf [0, 0, 3, 0xE8, 240]).addr = .blocked) ∧
    (∀ r, r < 8 → ¬(office.setting (0xC0 + 16 * r) = 1)) := by decide

theorem witness_TextCheckAndSkipBytes :
    (let s := lined { freshLine with state := .text, fifo := [0x42], bound := some tag0, remaining := 1 }
        (holding (page .assembling))
     (s.line 0).state = .text ∧ (s.line 0).fifo = 0x42 :: [] ∧
      (s.line 0).bound = some tag0 ∧ s.entry tag0 = some (page .assembling) ∧ 1 ≤ (s.line 0).remaining ∧
      (page .assembling).len = 19 + (s.line 0).remaining ∧ (page .assembling).blocks[19 / 16]? = some 1 ∧
      4096 - 512 * s.partition + 1 < 4608 ∧ 8 ≤ s.threshold 0) ∧
    (let s := lined { freshLine with state := .check, fifo := [0x10], sum := 0xF0, bound := some tag0 }
        (holding (page .assembling))
     (s.line 0).state = .check ∧ (s.line 0).fifo = 0x10 :: [] ∧
      (s.line 0).bound = some tag0 ∧ s.entry tag0 = some (page .assembling) ∧ 8 ≤ s.threshold 0 ∧
      (∀ m, m ≠ 0 → (s.line m).bound ≠ some tag0) ∧ (s.line 0).sum + 0x10 = 0 ∧ (s.line 0).sum + 0x11 ≠ 0) ∧
    (let s := lined { freshLine with state := .skip, fifo := [0x10], remaining := 1 } office
     (s.line 0).state = .skip ∧ (s.line 0).fifo = 0x10 :: [] ∧
      1 ≤ (s.line 0).remaining ∧ 8 ≤ s.threshold 0) := by decide

theorem witness_AbortsOfALine :
    (let l := { freshLine with state := .skip, timer := 4, tickDue := true }
     (lined l office).line 0 = l ∧ l.tickDue = true ∧ l.state = .skip ∧
      (lined l office).idleLimit 0 ≤ min 60 (l.timer + 1)) ∧
    (let l := { freshLine with state := .header, timer := 3 }
     (lined l office).line 0 = l ∧ l.tickDue = false ∧ l.state = .header ∧
      min 60 (l.timer + 1) < (lined l office).idleLimit 0) ∧
    (office.line 0).state = .disabled := by decide

theorem witness_FetchesAndLineCommands :
    (office.op ≠ some .autoclear ∧ (office.line 0).receipt = none) ∧
    ((lined { freshLine with receipt := some (.accepted tag0 63) } office).line 0).receipt
      = some (.accepted tag0 63) ∧
    ((lined { freshLine with receipt := some (.refused .foreign 15) } office).line 0).receipt
      = some (.refused .foreign 15) ∧
    (∀ c ∈ ([.lineEnable, .lineDisable, .lineFlush, .lineStatus] : List Cmd),
      (framed c [] noDesig office).lastArrives c [] 3 noDesig ∧ (framed c [] noDesig office).lastArrives c [] 4 noDesig) ∧
    (framed .lineClear [3] noDesig office).lastArrives .lineClear [3] 0x1F noDesig ∧
    (framed .lineClear [4] noDesig office).lastArrives .lineClear [4] 0x1F noDesig ∧
    (3 : Byte) = BitVec.ofNat 8 (3 : LineNo).val := by decide

theorem witness_ChargeFormula :
    (240 - office.tariffF 7 ≤ 16 * 13 ∧ 16 * 13 < 240 - office.tariffF 7 + 16 ∧ office.tariffB 7 ≤ 255 ∧
      1 ≤ office.tariffU 7 ∧ office.tariffU 7 ≤ 4 ∧ office.tariffP 7 ≤ 63 ∧ office.m16 0 = 16) ∧
    (10 - office.tariffF 0 ≤ 16 * 0 ∧ 16 * 0 < 10 - office.tariffF 0 + 16) := by decide

theorem witness_WindowFormula :
    ({ aired with attempts := 15 }.attempt = some firstAttempt ∧ 1 ≤ ({ aired with attempts := 15 }).attempts) ∧
    (∃ a : Attempt, ({ aired with attempt := some { firstAttempt with oneWay := true } }).attempt = some a ∧
      a.oneWay = true) := by
  exact ⟨by decide, _, rfl, rfl⟩

/-- A header for the pager of a page of `n` characters. -/
def headed (n : Nat) : Header := { addr := 1000, priority := .normal, kind := .text, len := n }

theorem witness_AdmissionRefusesALine :
    (let s := asked (.admission (.line 0) { headed 20 with addr := 999 }) office
     s.op = none ∧ s.pendingRemovals = [] ∧
      s.lookups = { user := .admission (.line 0) { headed 20 with addr := 999 }, held := false } :: [] ∧
      s.record 999 = none) ∧
    (let s := asked (.admission (.line 0) (headed 65)) office
     s.lookups = { user := .admission (.line 0) (headed 65), held := false } :: [] ∧
      s.record 1000 = some pager ∧ pager.state = .active ∧ (s.acct 5).state = .opened ∧ ¬8 ≤ pager.live ∧
      s.liveEntries.length ≠ 256 ∧ s.freeBlocks.length * 16 < 65) ∧
    (let s := asked (.admission (.line 0) (headed 65)) { office with directory := [{ pager with state := .suspended }] }
     (s.record 1000).map (fun r => r.state) = some .suspended) := by decide +kernel

theorem witness_AdmissionAdmitsALine :
    let s := asked (.admission (.line 0) (headed 64)) office
    s.op = none ∧ s.pendingRemovals = [] ∧
    s.lookups = { user := .admission (.line 0) (headed 64), held := false } :: [] ∧
    s.record 1000 = some pager ∧ pager.state = .active ∧ (s.acct pager.account).state ≠ .barred ∧
    pager.live < 8 ∧ (s.slot 0).entry = none ∧ (∀ j, j < 0 → (s.slot j).entry ≠ none) ∧
    (headed 64).len ≤ 16 * s.freeBlocks.length ∧
    (s.acct pager.account).balance - (s.chargeFor pager.cls pager.home 64 .normal : Int)
      ≥ -((s.acct pager.account).cl : Int) ∧
    ¬(∃ e ∈ s.liveEntries, e.addr = 1000 ∧ e.serial = (pager.nextSerial + 0) % 64) := by
  refine ⟨rfl, rfl, rfl, rfl, rfl, by decide, by decide, by decide, by decide, by decide, by decide +kernel,
    by decide +kernel⟩

/-- The port's frame for a page of two characters, its request outstanding. -/
def portFrame (texts : List Byte) : Frame :=
  { cmd := .submitPage, args := [0, 0, 3, 0xE8, 2] ++ texts, misq := false, desig := noDesig, outcome := .outstanding }

theorem witness_AdmissionReachesThePort :
    (let s := (asked (.admission .port (headed 2)) office).setFrame (some (portFrame [0x41, 0x42]))
     s.op = none ∧ s.pendingRemovals = [] ∧
      s.lookups = { user := .admission .port (headed 2), held := false } :: [] ∧
      s.port.frame = some (portFrame [0x41, 0x42]) ∧ (portFrame [0x41, 0x42]).outcome = .outstanding ∧
      s.verdict (headed 2) = .admitted 0 pager 0 ∧
      (State.writeTexts
        ((({ s with lookups := [] } : State).admitPage 0 .port (headed 2) pager 0).setFrame
          (some { portFrame [0x41, 0x42] with outcome := .admitted tag0 0 }))
        (s.freeBlocks.take ((2 + 15) / 16)) 0 ((portFrame [0x41, 0x42]).args.drop 5)).isSome = true) ∧
    (let s := (asked (.admission .port { headed 2 with addr := 999 }) office).setFrame (some (portFrame [0x41]))
     s.verdict { headed 2 with addr := 999 } = .refused .unknown) := by decide +kernel

theorem witness_SubmitPageCompletes :
    (let f : Frame := { portFrame [0x41] with outcome := .admitted tag0 0 }
     let s := (holding { page .assembling with len := 2, blocks := [0] }).setFrame (some f)
     s.byteReady true true 0x42 ∧ s.port.frame = some f ∧ f.cmd = .submitPage ∧ f.misq = false ∧
      f.args.length = 5 + 1 ∧ (f.args.getD 4 0).toNat = 1 + 1 ∧
      s.entry tag0 = some { page .assembling with len := 2, blocks := [0] } ∧ [0][1 / 16]? = some 0 ∧
      4096 - 512 * s.partition + 0 < 4608 ∧ ∀ m, (s.line m).bound ≠ some tag0) ∧
    ({ portFrame [0x41] with outcome := .refused .foreign 15 }.outcome = .refused .foreign 15) ∧
    (portFrame [0x41]).outcome = .outstanding := by decide

theorem account_ok : (holding (page .waiting)).acct 5 |>.Ok := by
  constructor <;> decide

theorem witness_EndingsSettleThePage :
    (holding (page .waiting)).entry tag0 = some (page .waiting) ∧ Ending.expired ≠ .none ∧
    ((holding (page .waiting)).acct (page .waiting).account).Ok :=
  ⟨by decide, by decide, account_ok⟩

theorem witness_EndingsLeaveTheirPlace :
    (holding (page .waiting)).entry tag0 = some (page .waiting) ∧
    (holding (page .waiting)).record (page .waiting).addr = some { pager with live := 1, nextSerial := 1 } := by decide

theorem witness_PageStatusAndCancel :
    (let s := latched (pageDesig tag0) (holding (page .waiting))
     s.codeArrives .pageStatus (pageDesig tag0) ∧ s.codeArrives .cancelPage (pageDesig tag0) ∧
      (s.slot 0).entry = some (page .waiting) ∧ (s.slot 0).gen = tag0.gen ∧ s.entry tag0 = some (page .waiting)) ∧
    (let s := latched (pageDesig tag0) { office with slots := [(0, { gen := 1, last := .expired, entry := none })] }
     s.codeArrives .pageStatus (pageDesig tag0) ∧ s.codeArrives .cancelPage (pageDesig tag0) ∧
      (s.slot 0).entry = none ∧ (s.slot 0).gen = tag0.gen ∧ (s.slot 0).last ≠ .none) ∧
    (let s := latched (pageDesig { slot := 255, gen := 0 }) office
     s.codeArrives .pageStatus (pageDesig { slot := 255, gen := 0 }) ∧ (s.slot 255).entry = none ∧
      (s.slot 255).gen = 0 ∧ (s.slot 255).last = .none) ∧
    ((latched (pageDesig tag0) office).slot 0).gen ≠ tag0.gen ∧
    ((holding (page .onAir)).entry tag0 = some (page .onAir) ∧
      (holding (page .assembling)).entry tag0 = some (page .assembling)) := by decide

theorem witness_PurgeTakesTheSlots :
    office.codeArrives .purgeTraffic noDesig ∧
    ((during (.purge 255) office).op = some (.purge 255) ∧ 255 < 256 ∧ (office.slot 255).entry = none) ∧
    (let s := during (.purge 0) (holding (page .waiting))
     s.op = some (.purge 0) ∧ (s.slot 0).entry = some (page .waiting) ∧ (page .waiting).state ≠ .assembling) ∧
    (let s := during (.purge 0) (lined { freshLine with state := .text, bound := some tag0 } (holding (page .assembling)))
     (s.slot 0).entry = some (page .assembling) ∧ (page .assembling).state = .assembling ∧
      (s.line 0).bound = some { slot := 0, gen := (s.slot 0).gen } ∧ ∀ m, m ≠ 0 → (s.line m).bound ≠ some tag0) ∧
    (let s := during (.purge 0) (holding (page .assembling))
     (s.slot 0).entry = some (page .assembling) ∧ ∀ m, (s.line m).bound ≠ some tag0) ∧
    (during (.purge 256) office).op = some (.purge 256) := by decide

theorem witness_TicksAndTheClock :
    (let s : State :=
        { lined { freshLine with state := .text, timer := 3 } office with lateTicks := [[.line 1, .channel .B]] }
     s.op ≠ some .autoclear ∧ (∀ n, (s.line n).tickDue = false) ∧
      TickPart.channel .B ∈ s.lateTicks.headD [] ∧ TickPart.line 0 ∉ s.lateTicks.headD [] ∧
      ∀ n, TickPart.line n ∉ s.lateTicks.headD [] → (s.line n).state.counts = true →
        min 60 ((s.line n).timer + 1) < s.idleLimit n) ∧
    (∀ c, ((lined { freshLine with state := .text, timer := 3 } office).mon c).sampleDue = false) ∧
    (let s : State := { office with lateTicks := [[.channel .A]], monitorOn := false }
     s.op ≠ some .autoclear ∧ TickPart.channel .A ∈ s.lateTicks.headD [] ∧ s.monitorOn = false) ∧
    (framed .setClock [0xFF, 0xFF, 0xFF] noDesig office).lastArrives .setClock [0xFF, 0xFF, 0xFF] 0xFF noDesig ∧
    office.codeArrives .readClock noDesig := by
  refine ⟨by decide, fun c => ?_, by decide, by decide, by decide⟩
  cases c <;> rfl

theorem witness_SamplesAndMoves :
    (let s := office.setMon .A { freshMonitor with level := 2, activity := 4095, up := 2, sampleDue := true }
     s.monitorOn = true ∧ (s.mon .A).sampleDue = true ∧ s.setting (0x160 + 2 * 2) ≤ (7 * 4095 + 0 + 4) / 8 ∧
      s.setting 0x16C ≤ min 15 (2 + 1) ∧ (s.mon .A).level < 3 ∧ s.levelEnabled 3 = true) ∧
    (let s := office.setMon .B { freshMonitor with level := 3, activity := 0, down := 14 }
     s.monitorOn = true ∧ (s.mon .B).sampleDue = false ∧ (7 * 0 + 0 + 4) / 8 < s.setting (0x164 + 2 * 3) ∧
      s.setting 0x16D ≤ min 15 (14 + 1) ∧ 2 < (s.mon .B).level ∧ s.levelEnabled 2 = true) ∧
    (office.monitorOn = true ∧ (office.mon .A).level = 0) ∧
    ({ office with monitorOn := false } : State).monitorOn = false := by decide

theorem witness_SchedulingPlacesTheEntry :
    ((page .assembling).wheel = none ∧ 1 ≤ 1) ∧
    (let s := visited { page .waiting with wheel := some (1, 0) }
     s.wheelList 1 = [tag0] ∧ s.visits = [{ slot := 1, todo := [tag0] }]) := by decide

theorem witness_VisitsExamineTheEntry :
    (let e : Entry := { page .waiting with wheel := some (1, 0) }
     (visited e).visits = [] ++ { slot := 1, todo := tag0 :: [] } :: [] ∧ (visited e).entry tag0 = some e ∧
      e.wheel = some (1, 0) ∧ (visited e).time < e.deadline ∧ (visited e).launchAsked tag0 = false ∧
      e.state = .waiting) ∧
    (let e : Entry := { page .waiting with wheel := some (1, 1) }
     (visited e).entry tag0 = some e ∧ (visited e).time < e.deadline) ∧
    (let e : Entry := { page .waiting with wheel := some (1, 0), deadline := 1 }
     (visited e).entry tag0 = some e ∧ e.deadline ≤ (visited e).time) ∧
    (asked (.launch tag0) (visited { page .waiting with wheel := some (1, 0) })).launchAsked tag0 = true ∧
    (let e : Entry := { page .listening with wheel := some (1, 0), attempts := 4 }
     (visited e).entry tag0 = some e ∧ e.state = .listening ∧ e.attempts = e.maxAttempts) ∧
    (let e : Entry := { page .listening with wheel := some (1, 0), attempts := 3 }
     (visited e).entry tag0 = some e ∧ e.attempts ≠ e.maxAttempts) := by decide

theorem witness_LaunchesPlaceOrDefer :
    (let s := asked (.launch tag0) (holding (page .assembling))
     s.op = none ∧ s.pendingRemovals = [] ∧ s.lookups = { user := .launch tag0, held := false } :: [] ∧
      s.entry tag0 = some (page .assembling) ∧
      s.record 1000 = some { pager with live := 1, nextSerial := 1 } ∧ (s.chan .A).state = .opened ∧
      (s.chan .A).urgent.length + (s.chan .A).normal.length < 64) ∧
    (let s := asked (.launch tag0) ((holding (page .assembling)).setChan .A
        { freshChannel with state := .opened, normal := List.replicate 64 { slot := 9, gen := 9 } })
     s.entry tag0 = some (page .assembling) ∧ ¬(s.chan .A).urgent.length + (s.chan .A).normal.length < 64) := by decide

theorem witness_PullsWithoutAPage :
    (airedA aired).entry tag0 = some aired ∧ (airedA aired).op ≠ some .autoclear ∧
    (State.reset.chan .A).state = .closed ∧
    (let s := office.setChan .A { freshChannel with state := .opened, outstanding := List.replicate 4 tag0 }
     (s.chan .A).state ≠ .closed ∧ (s.chan .A).outstanding.length = 4) ∧
    ((office.chan .A).outstanding.length < 4 ∧ (office.chan .A).urgent = [] ∧ (office.chan .A).normal = [] ∧
      (office.chan .A).state = .opened) ∧
    (let s := office.setChan .A { freshChannel with state := .draining, outstanding := List.replicate 3 tag0 }
     (s.chan .A).outstanding.length < 4 ∧ (s.chan .A).urgent = [] ∧ (s.chan .A).normal = [] ∧
      (s.chan .A).state = .draining) ∧
    (let s := (holding { page .queued with deadline := 0 }).setChan .A
        { freshChannel with state := .draining, normal := [tag0] }
     s.op ≠ some .autoclear ∧ (s.chan .A).outstanding.length < 4 ∧
      (s.chan .A).urgent ++ (s.chan .A).normal = [tag0] ∧
      s.entry tag0 = some { page .queued with deadline := 0 } ∧ (0 : Nat) ≤ s.time ∧
      (s.chan .A).state = .draining) := by decide

/-- The tag of slot 1 with generation 1. -/
def tag1 : Tag := { slot := 1, gen := 1 }

/-- Slot 0's page past its deadline at the head of the queue, and slot 1's page of no text behind it. -/
def twoQueued : State :=
  { (holding { page .queued with deadline := 0 }).setChan .A
      { freshChannel with state := .opened, urgent := [tag0], normal := [tag1] } with
    slots :=
      [(0, { gen := 1, last := .none, entry := some { page .queued with deadline := 0, attempt := some firstAttempt } }),
       (1, { gen := 1, last := .none
             entry := some { page .queued with len := 0, blocks := [], attempt := some firstAttempt } })] }

theorem witness_PullsServeAPage :
    let s := twoQueued
    let x := [tag0].foldl (fun v d => (v.endEntry .expired d).leaveBand d .A) (s.markOutstanding .A)
    s.op ≠ some .autoclear ∧ (s.chan .A).state ≠ .closed ∧ (s.chan .A).outstanding.length < 4 ∧
    (s.chan .A).urgent ++ (s.chan .A).normal = [tag0] ++ tag1 :: [] ∧
    ((s.chan .A).urgent ++ (s.chan .A).normal).Nodup ∧
    (∀ d ∈ [tag0], ∃ f, s.entry d = some f ∧ f.state = .queued ∧ f.deadline ≤ s.time) ∧
    s.entry tag1 = some { page .queued with len := 0, blocks := [], attempt := some firstAttempt } ∧
    s.time < (page .queued).deadline ∧ x.readTexts [] 0 = some [] := by
  refine ⟨by decide, by decide, by decide, by decide, by decide, ?_, by decide, by decide, rfl⟩
  intro d hd
  rw [List.mem_singleton] at hd
  subst hd
  exact ⟨_, rfl, rfl, by decide⟩

theorem witness_SentReportsAreCounted :
    (airedA aired).op ≠ some .autoclear ∧ tag0 ∈ ((airedA aired).chan .A).outstanding ∧
    tag0 = { slot := (0 : Byte).toNat, gen := (1 : Byte).toNat } ∧
    (airedA aired).entry tag0 = some aired ∧ aired.state = .onAir ∧ aired.chan = .A ∧
    aired.attempt = some firstAttempt ∧ ((airedA aired).acct aired.account).Ok :=
  ⟨by decide, by decide, by decide, by decide, rfl, rfl, rfl, account_ok⟩

theorem witness_FailedAndStrayReports :
    ((airedA aired).op ≠ some .autoclear ∧ tag0 ∈ ((airedA aired).chan .A).outstanding ∧
      (airedA aired).entry tag0 = some aired ∧ aired.state = .onAir ∧ aired.chan = .A) ∧
    (tag1 ∉ ((airedA aired).chan .A).outstanding ∧ (3 : Byte) ≠ 0x01 ∧ (3 : Byte) ≠ 0x02) ∧
    (let s := airedA { page .listening with wheel := some (5, 0) }
     tag0 ∈ (s.chan .A).outstanding ∧ (s.entry tag0).map (fun e => e.state) = some .listening) := by decide

theorem witness_ChannelCommands :
    (∀ c ∈ ([.channelOpen, .channelDrain, .channelClose, .channelStatus, .channelClear] : List Cmd),
      (framed c [] noDesig office).lastArrives c [] 0 noDesig ∧ (framed c [] noDesig office).lastArrives c [] 1 noDesig ∧
      (framed c [] noDesig office).lastArrives c [] 2 noDesig) ∧
    (let s := framed .channelClose [] noDesig queuedA
     s.op = none ∧ s.lastArrives .channelClose [] 0 noDesig ∧ ((s.chan .A).urgent ++ (s.chan .A).normal) = [tag0] ∧
      (s.entry tag0).map (fun e => e.wheel) = some none) := by decide

theorem witness_AnswerBackFramesAndService :
    (office.op ≠ some .autoclear ∧ (office.abSlot 0).rx = []) ∧
    (let s := office.setAbSlot 0 { freshAbSlot with rx := [1, 2, 3] }
     (s.abSlot 0).rx ≠ [] ∧ (s.abSlot 0).rx.length < 4) ∧
    (let s := office.setAbSlot 0 { freshAbSlot with rx := [1, 2, 3, 4] }
     (s.abSlot 0).rx = [1, 2, 3, 4] ∧ (s.abSlot 0).frame = none) ∧
    (let s := (serving 1 office).setAbSlot 0 { (serving 1 office).abSlot 0 with rx := [1, 2, 3, 4] }
     (s.abSlot 0).rx = [1, 2, 3, 4] ∧ (s.abSlot 0).frame ≠ none) ∧
    (let s : State := { (serving 1 office).setAbSlot 3 ((serving 1 office).abSlot 0) with
        lookups := [], ab := ⟨freshAbSlot, freshAbSlot, freshAbSlot, (serving 1 office).abSlot 0⟩ }
     s.lookups = [] ∧ (3 : LineNo).val = (s.servicePtr.val + 1 + 3) % 4 ∧ (s.abSlot 3).frame ≠ none ∧
      (s.abSlot 0).frame = none ∧ (s.abSlot 1).frame = none ∧ (s.abSlot 2).frame = none) ∧
    (serving 1 office).lookups = [{ user := .service 0, held := false }] ∧
    (∀ m, (office.abSlot m).frame = none) := by decide

theorem witness_ServedFramesReachTheirPage :
    (let s := serving 3 office
     s.op = none ∧ s.pendingRemovals = [] ∧ s.lookups = { user := .service 0, held := false } :: [] ∧
      (s.abSlot 0).frame = some { kind := 3, addr := 1000, serial := 0 } ∧ s.record 1000 = some pager) ∧
    (serving 3 { office with directory := [] }).record 1000 = none ∧
    ((serving 4 office).abSlot 0).frame = some { kind := 4, addr := 1000, serial := 0 } ∧
    (let s := serving 1 (airedA aired)
     s.op = none ∧ s.pendingRemovals = [] ∧ s.lookups = { user := .service 0, held := false } :: [] ∧
      (s.abSlot 0).frame = some { kind := 1, addr := 1000, serial := 0 } ∧ (s.slot 0).entry = some aired ∧
      s.liveEntries = [aired] ∧ aired.state = .onAir ∧ aired.addr = 1000 ∧ aired.serial = 0) ∧
    (let e : Entry := { page .listening with wheel := some (5, 0), attempts := 4 }
     (serving 2 (holding e)).liveEntries = [e] ∧ 1 ≤ e.attempts ∧ e.attempts = e.maxAttempts) ∧
    (let e : Entry := { page .listening with wheel := some (5, 0), attempts := 1 }
     (serving 2 (holding e)).liveEntries = [e] ∧ 1 ≤ e.attempts ∧ e.attempts ≠ e.maxAttempts) ∧
    ((serving 1 office).liveEntries = [] ∧ (serving 1 office).record 1000 = some pager) ∧
    (let s := serving 2 { office with directory := [] }
     s.liveEntries = [] ∧ s.record 1000 = none) ∧
    (let s : State := { (serving 1 office).setAbSlot 3 ((serving 1 office).abSlot 0) with servicePtr := 0 }
     (s.abSlot 3).frame ≠ none ∧ (3 : LineNo).val = (s.servicePtr.val + 1 + 2) % 4 ∧
      (s.abSlot 1).frame = none ∧ (s.abSlot 2).frame = none) := by decide +kernel

theorem witness_AnswerBackAndMonitorCommands :
    (framed .answerBackStatus [] noDesig office).lastArrives .answerBackStatus [] 3 noDesig ∧
    (framed .answerBackStatus [] noDesig office).lastArrives .answerBackStatus [] 4 noDesig ∧
    (framed .answerBackClear [3] noDesig office).lastArrives .answerBackClear [3] 7 noDesig ∧
    (framed .answerBackClear [4] noDesig office).lastArrives .answerBackClear [4] 7 noDesig ∧
    (3 : Byte) = BitVec.ofNat 8 (3 : LineNo).val ∧
    office.codeArrives .monitorEnable noDesig ∧ office.codeArrives .monitorDisable noDesig ∧
    office.codeArrives .monitorStatus noDesig ∧ office.monitorOn = true ∧
    ({ office with monitorOn := false } : State).codeArrives .monitorDisable noDesig ∧
    office.setting 0x171 ≤ 3 := by decide

/-! ## A state with a live page that meets every invariant -/

/-- The page on slot 1 of the Retry Wheel. -/
def wheeled : Entry := { page .waiting with wheel := some (1, 0) }

/-- The office at the power-on settings with one live page, waiting on slot 1 of the Retry Wheel, and the
rest of the pool free; a tick is the step that waits. -/
def living : State :=
  { holding wheeled with
    settings := [], freeBlocks := (List.range 512).drop 2, wheel := [(1, [tag0])], pending := [.tick] }

theorem living_steps : ∃ t, step living = .next t := ⟨_, rfl⟩

theorem living_liveEntries : living.liveEntries = [wheeled] := by decide +kernel

theorem living_slot (i : Nat) :
    living.slot i = if i = 0 then { gen := 1, last := .none, entry := some wheeled } else freshSlot := by
  by_cases h : i = 0
  · subst h; rfl
  · have : (0 : Nat) ≠ i := fun e => h e.symm
    simp [h, living, holding, State.slot, tblGet, this]

theorem living_slots : living.SlotsOk := by
  intro i hi
  rw [living_slot, if_neg (by omega)]
  rfl

/-- The one live entry is that of slot 0. -/
theorem living_entry {t : Tag} {e : Entry} (h : living.entry t = some e) : t = tag0 ∧ e = wheeled := by
  obtain ⟨i, g⟩ := t
  simp only [State.entry, living_slot] at h
  by_cases hi : i = 0
  · subst hi
    simp only [if_true] at h
    split at h
    · next hg =>
      subst hg
      cases h
      exact ⟨rfl, rfl⟩
    · cases h
  · simp [hi, freshSlot] at h

theorem living_wheelList (w : Nat) : living.wheelList w = if w = 1 then [tag0] else [] := by
  by_cases h : w = 1
  · subst h; rfl
  · have : (1 : Nat) ≠ w := fun e => h e.symm
    simp [h, living, State.wheelList, tblGet, this]

theorem living_acct (i : Nat) :
    living.acct i = if i = 5 then (holding (page .waiting)).acct 5 else unusedAccount := by
  by_cases h : i = 5
  · subst h; rfl
  · have : (5 : Nat) ≠ i := fun e => h e.symm
    simp [h, living, holding, State.acct, tblGet, this]

theorem witness_StepsKeepTheOverrunRule : living.AccountsOk ∧ ∃ t, step living = .next t := by
  refine ⟨fun i => ?_, living_steps⟩
  rw [living_acct]
  split
  · exact account_ok
  · constructor <;> decide

theorem living_directoryOk : living.DirectoryOk := by
  refine ⟨by decide, by decide, ?_, ?_⟩ <;> intro _ h <;> cases h

theorem witness_StepsKeepTheDirectoryInOrder :
    living.DirectoryOk ∧ living.RefsOk ∧ ∃ t, step living = .next t := by
  refine ⟨living_directoryOk, ⟨living_directoryOk, by decide, by rintro _ ⟨⟩, fun i => ?_⟩, living_steps⟩
  rw [living_acct]
  by_cases h : i = 5
  · subst h; rfl
  · have : ¬(5 : Nat) = i := fun e => h e.symm
    simp [h, living, holding, pager, unusedAccount, this]

theorem witness_StepsKeepHeldExact : living.HeldOk ∧ ∃ t, step living = .next t := by
  refine ⟨⟨living_slots, ?_, fun i => ?_⟩, living_steps⟩
  · rw [living_liveEntries]; decide
  · rw [living_liveEntries, living_acct]
    by_cases h : i = 5
    · subst h; rfl
    · have : ¬(5 : Nat) = i := fun e => h e.symm
      simp [h, wheeled, page, unusedAccount, this]

theorem living_liveOk : living.LiveOk := by
  refine ⟨living_slots, by decide, ?_, ?_, ?_, ?_, fun _ => rfl, ?_⟩
  · rw [living_liveEntries]; decide
  · rw [living_liveEntries]; decide
  · intro a b h; cases h
  · intro a h; cases h
  · intro r h; cases h

theorem witness_StepsKeepLiveCountsExact :
    living.LiveOk ∧ living.SerialsOk ∧ ∃ t, step living = .next t := by
  refine ⟨living_liveOk, ⟨?_, ?_⟩, living_steps⟩
  · rw [living_liveEntries]; decide
  · intro i j e f hij _ _ hf _
    rw [living_slot, if_neg (by omega)] at hf
    cases hf

theorem witness_StepsKeepThePlaces : living.LiveOk ∧ living.PlacesOk ∧ ∃ t, step living = .next t := by
  refine ⟨living_liveOk, ⟨⟨living_slots, ?_, ?_, ?_, ?_, ?_, ?_, ?_, ?_⟩, ⟨?_, ?_, ?_, ?_, ?_, ?_, ?_, ?_⟩⟩,
    living_steps⟩
  · intro t e h hs
    obtain ⟨rfl, rfl⟩ := living_entry h
    cases hs
  · intro t e h
    obtain ⟨rfl, rfl⟩ := living_entry h
    refine ⟨fun _ => ⟨1, 0, rfl, ?_⟩, fun hs => by cases hs⟩
    rw [living_wheelList]
    decide
  · intro t e h hs
    obtain ⟨rfl, rfl⟩ := living_entry h
    cases hs
  · intro t e h hs
    obtain ⟨rfl, rfl⟩ := living_entry h
    cases hs
  · intro n t h
    fin_cases n <;> cases h
  · intro f t v h
    cases h
  · intro w
    rw [living_wheelList]
    split
    · next hw =>
      subst hw
      refine ⟨by decide, fun t ht => ?_⟩
      rw [List.mem_singleton] at ht
      subst ht
      exact ⟨wheeled, 0, rfl, rfl, rfl⟩
    · exact ⟨List.nodup_nil, fun t ht => by cases ht⟩
  · intro c p
    have hb : (living.chan c).band p = [] := by cases c <;> cases p <;> rfl
    rw [hb]
    exact ⟨List.nodup_nil, fun t ht => by cases ht⟩
  · intro n h
    cases h
  · refine ⟨fun h => by simp [living, holding, office, State.reset] at h, fun h => ?_⟩
    obtain ⟨f, hf, -⟩ := h
    cases hf
  · intro src
    exact Nat.zero_le 1
  · intro t h
    cases h
  · intro t
    exact Nat.zero_le 1
  · intro v h
    cases h
  · intro f h
    cases h
  · intro _
    rfl

theorem witness_StepsKeepThePoolWhole : living.PoolOk ∧ ∃ t, step living = .next t := by
  refine ⟨⟨living_slots, ?_, fun p h => by cases h⟩, living_steps⟩
  rw [living_liveEntries]
  refine List.perm_append_comm.trans (List.Perm.of_eq ?_)
  decide +kernel

/-- Every field's power-on value is within its range. -/
theorem defaults_in_range :
    ∀ a, a < 0x284 → ∀ f ∈ fieldAt a, f.lo ≤ settingDefault f.first ∧ settingDefault f.first ≤ f.hi := by
  decide +kernel

theorem fieldAt_end {a : Nat} (h : 0x284 ≤ a) : fieldAt a = none := by
  unfold fieldAt
  repeat rw [if_neg (by omega)]

theorem witness_StepsKeepRangesAndForms :
    living.Canonical ∧ living.SettingsOk ∧ living.MonitorOk ∧ living.LinesOk ∧ living.ChannelsOk ∧
      living.PortOk ∧ ∃ t, step living = .next t := by
  refine ⟨⟨?_, ?_, ?_, ?_, ?_⟩, ⟨?_, by decide, by decide +kernel⟩, ⟨?_, ?_, ?_, ?_, ?_, ?_⟩, ⟨?_, ?_⟩, ?_, ?_,
    living_steps⟩
  · exact List.Pairwise.nil
  · exact ⟨by simp [living, holding], by decide⟩
  · exact ⟨List.Pairwise.nil, by simp [living]⟩
  · exact ⟨by simp [living, holding], by decide⟩
  · exact ⟨by simp [living], by decide⟩
  · intro a f h
    by_cases ha : a < 0x284
    · exact defaults_in_range a ha f h
    · rw [fieldAt_end (by omega)] at h
      cases h
  · decide
  · intro c; cases c <;> decide
  · intro c; cases c <;> decide
  · intro c; cases c <;> decide
  · intro c; cases c <;> decide
  · intro h; cases h
  · intro n
    have : living.line n = freshLine := by fin_cases n <;> rfl
    rw [this]
    have h8 : 8 ≤ living.threshold n := by fin_cases n <;> decide
    constructor <;> simp [freshLine]
    omega
  · intro n; fin_cases n <;> decide
  · intro c
    cases c <;> constructor <;> simp [living, holding, office, State.chan, Duo.get, freshChannel]
  · constructor <;> simp [living, holding, office, State.reset, freshPort, emptyLatch]

end Sys2Proof.Tests
end

/-! ## What the shared operations leave unchanged -/

section

namespace Sys2Proof.Machine

/-! ### One line, one slot, one record -/

theorem State.setLine_setLine (s : State) (n : LineNo) (l l' : Line) :
    (s.setLine n l).setLine n l' = s.setLine n l' := by
  fin_cases n <;> rfl

theorem State.slot_setEntry (s : State) (i : Nat) (e : Entry) :
    (s.setEntry i e).slot i = { s.slot i with entry := some e } := State.slot_setSlot ..

theorem State.slot_setEntry_ne (s : State) {i j : Nat} (e : Entry) (h : j ≠ i) :
    (s.setEntry i e).slot j = s.slot j := State.slot_setSlot_ne _ _ h

/-- R86: a tag names a live entry when its slot holds that entry under the tag's generation. -/
theorem State.entry_eq_some {s : State} {t : Tag} {e : Entry} :
    s.entry t = some e ↔ (s.slot t.slot).gen = t.gen ∧ (s.slot t.slot).entry = some e := by
  unfold State.entry
  split <;> simp [*]

theorem State.entry_congr {s u : State} (h : u.slots = s.slots) (t : Tag) : u.entry t = s.entry t := by
  have hs : u.slot t.slot = s.slot t.slot := by rw [State.slot, State.slot, h]
  rw [State.entry, State.entry, hs]

theorem State.entry_setEntry {s : State} {t : Tag} {e : Entry} (h : s.entry t = some e) (e' : Entry) :
    (s.setEntry t.slot e').entry t = some e' := by
  rw [State.entry_eq_some] at h ⊢
  simp [State.slot_setEntry, h.1]

/-- R4, R7: a record that is found stands in the directory under the address asked for. -/
theorem State.record_eq_some {s : State} {a : Nat} {r : Subscriber} (h : s.record a = some r) :
    r ∈ s.directory ∧ r.addr = a :=
  ⟨List.mem_of_find?_eq_some h, by simpa using List.find?_some h⟩

theorem State.record_eq_none {s : State} {a : Nat} :
    s.record a = none ↔ ∀ q ∈ s.directory, q.addr ≠ a := by
  simp [State.record]

theorem State.isSome_record {s : State} {a : Nat} :
    (s.record a).isSome = true ↔ ∃ r ∈ s.directory, r.addr = a := by
  simp [State.record]

/-- R4: in a directory in order the records are told apart by their addresses. -/
theorem eq_of_addr_eq {d : List Subscriber} (hd : d.Pairwise (fun p q => p.addr < q.addr))
    {p q : Subscriber} (hp : p ∈ d) (hq : q ∈ d) (h : p.addr = q.addr) : p = q := by
  induction d with
  | nil => cases hp
  | cons r rest ih =>
    obtain ⟨hr, hrest⟩ := List.pairwise_cons.1 hd
    rcases List.mem_cons.1 hp with rfl | hp' <;> rcases List.mem_cons.1 hq with rfl | hq'
    · rfl
    · have := hr q hq'; omega
    · have := hr p hp'; omega
    · exact ih hrest hp' hq'

/-- R4: in a directory in order a record is the one found under its address. -/
theorem State.record_of_mem {s : State} (hd : s.directory.Pairwise (fun p q => p.addr < q.addr))
    {r : Subscriber} (hr : r ∈ s.directory) : s.record r.addr = some r := by
  cases h : s.record r.addr with
  | none => exact absurd rfl (State.record_eq_none.1 h r hr)
  | some q =>
    obtain ⟨hq, ha⟩ := State.record_eq_some h
    rw [eq_of_addr_eq hd hq hr ha]

/-- R15: a record is found after a change of the record at `a` as that change leaves it. -/
theorem State.record_updateRecord (s : State) (a b : Nat) (f : Subscriber → Subscriber)
    (hf : ∀ r, (f r).addr = r.addr) :
    (s.updateRecord a f).record b = (s.record b).map (fun r => if r.addr = a then f r else r) := by
  simp only [State.record, State.updateRecord, List.find?_map]
  congr 2
  funext r
  by_cases h : r.addr = a <;> simp [h, hf]

/-! ### The ending of a page (R91), block by block -/

/-- The state with everything blanked that the ending of a page may change: two states are alike here when
they differ by endings only. -/
def State.outsideEndings (s : State) : State :=
  { s with
    op := none, pendingRemovals := [], lookups := [], directory := [], freeBlocks := [], poolHold := false
    accounts := [], lines := State.reset.lines, slots := [], wheel := [], visits := []
    chans := State.reset.chans, port := { s.port with causes := 0 } }

/-- R91: what an ending leaves unchanged. -/
theorem State.endEntry_outside (s : State) (k : Ending) (t : Tag) :
    (s.endEntry k t).outsideEndings = s.outsideEndings := by
  cases h : s.entry t with
  | none => rw [State.endEntry_of_none k h]
  | some e =>
    have free : ∀ u : State, (u.freeSlot t.slot k).outsideEndings = u.outsideEndings := fun _ => rfl
    have lower : ∀ u : State, (u.lowerLive e.addr).outsideEndings = u.outsideEndings := fun u => by
      rw [State.lowerLive_frame]; rfl
    have event : ∀ (u : State) r, (u.endingEvent e.account k e.charge r).outsideEndings = u.outsideEndings :=
      fun u r => by rw [State.endingEvent_frame]; rfl
    have leave : ∀ u : State, (u.leavePlace t e).outsideEndings = u.outsideEndings := fun u => by
      rw [State.leavePlace_frame]; rfl
    have give : (s.giveBlocks e.blocks).outsideEndings = s.outsideEndings := by
      rw [State.giveBlocks_eq]; rfl
    rw [State.endEntry_of_some k h, free, lower, event, leave, give]

section
variable (s : State) (k : Ending) (t : Tag)

@[simp] theorem State.endEntry_partition : (s.endEntry k t).partition = s.partition :=
  (congrArg State.partition (s.endEntry_outside k t) :)
@[simp] theorem State.endEntry_settings : (s.endEntry k t).settings = s.settings :=
  (congrArg State.settings (s.endEntry_outside k t) :)
@[simp] theorem State.endEntry_mons : (s.endEntry k t).mons = s.mons :=
  (congrArg State.mons (s.endEntry_outside k t) :)
@[simp] theorem State.endEntry_monitorOn : (s.endEntry k t).monitorOn = s.monitorOn :=
  (congrArg State.monitorOn (s.endEntry_outside k t) :)
@[simp] theorem State.endEntry_time : (s.endEntry k t).time = s.time :=
  (congrArg State.time (s.endEntry_outside k t) :)
@[simp] theorem State.endEntry_head : (s.endEntry k t).head = s.head :=
  (congrArg State.head (s.endEntry_outside k t) :)
@[simp] theorem State.endEntry_tablePtr : (s.endEntry k t).tablePtr = s.tablePtr :=
  (congrArg State.tablePtr (s.endEntry_outside k t) :)
@[simp] theorem State.endEntry_settleCursor : (s.endEntry k t).settleCursor = s.settleCursor :=
  (congrArg State.settleCursor (s.endEntry_outside k t) :)
@[simp] theorem State.endEntry_text : (s.endEntry k t).text = s.text :=
  (congrArg State.text (s.endEntry_outside k t) :)
end

/-! Each step of an ending leaves the blocks of the other steps as they are. -/

section
variable (s : State)

@[simp] theorem State.giveBlocks_freeBlocks (bs : List Nat) :
    (s.giveBlocks bs).freeBlocks = bs.reverse ++ s.freeBlocks := by rw [State.giveBlocks_eq]
@[simp] theorem State.giveBlocks_accounts (bs : List Nat) : (s.giveBlocks bs).accounts = s.accounts := by
  rw [State.giveBlocks_eq]
@[simp] theorem State.giveBlocks_slots (bs : List Nat) : (s.giveBlocks bs).slots = s.slots := by
  rw [State.giveBlocks_eq]
@[simp] theorem State.giveBlocks_directory (bs : List Nat) : (s.giveBlocks bs).directory = s.directory := by
  rw [State.giveBlocks_eq]
@[simp] theorem State.giveBlocks_op (bs : List Nat) : (s.giveBlocks bs).op = s.op := by
  rw [State.giveBlocks_eq]
@[simp] theorem State.giveBlocks_pendingRemovals (bs : List Nat) :
    (s.giveBlocks bs).pendingRemovals = s.pendingRemovals := by
  rw [State.giveBlocks_eq]
@[simp] theorem State.giveBlocks_lookups (bs : List Nat) : (s.giveBlocks bs).lookups = s.lookups := by
  rw [State.giveBlocks_eq]
@[simp] theorem State.giveBlocks_lines (bs : List Nat) : (s.giveBlocks bs).lines = s.lines := by
  rw [State.giveBlocks_eq]
@[simp] theorem State.giveBlocks_chans (bs : List Nat) : (s.giveBlocks bs).chans = s.chans := by
  rw [State.giveBlocks_eq]
@[simp] theorem State.giveBlocks_wheel (bs : List Nat) : (s.giveBlocks bs).wheel = s.wheel := by
  rw [State.giveBlocks_eq]
@[simp] theorem State.giveBlocks_visits (bs : List Nat) : (s.giveBlocks bs).visits = s.visits := by
  rw [State.giveBlocks_eq]

variable (t : Tag) (e : Entry)

@[simp] theorem State.leavePlace_freeBlocks : (s.leavePlace t e).freeBlocks = s.freeBlocks := by
  rw [State.leavePlace_frame]
@[simp] theorem State.leavePlace_poolHold : (s.leavePlace t e).poolHold = s.poolHold := by
  rw [State.leavePlace_frame]
@[simp] theorem State.leavePlace_port : (s.leavePlace t e).port = s.port := by
  rw [State.leavePlace_frame]
@[simp] theorem State.leavePlace_accounts : (s.leavePlace t e).accounts = s.accounts := by
  rw [State.leavePlace_frame]
@[simp] theorem State.leavePlace_slots : (s.leavePlace t e).slots = s.slots := by
  rw [State.leavePlace_frame]
@[simp] theorem State.leavePlace_directory : (s.leavePlace t e).directory = s.directory := by
  rw [State.leavePlace_frame]
@[simp] theorem State.leavePlace_op : (s.leavePlace t e).op = s.op := by
  rw [State.leavePlace_frame]
@[simp] theorem State.leavePlace_pendingRemovals :
    (s.leavePlace t e).pendingRemovals = s.pendingRemovals := by
  rw [State.leavePlace_frame]
@[simp] theorem State.leavePlace_lookups :
    (s.leavePlace t e).lookups = s.lookups.filter (fun l => !isLaunchOf t l.user) := by
  rw [State.leavePlace_frame]

variable (i : Nat) (k : Ending) (c r : Nat)

@[simp] theorem State.endingEvent_freeBlocks : (s.endingEvent i k c r).freeBlocks = s.freeBlocks := by
  rw [State.endingEvent_frame]
@[simp] theorem State.endingEvent_poolHold : (s.endingEvent i k c r).poolHold = s.poolHold := by
  rw [State.endingEvent_frame]
@[simp] theorem State.endingEvent_slots : (s.endingEvent i k c r).slots = s.slots := by
  rw [State.endingEvent_frame]
@[simp] theorem State.endingEvent_directory : (s.endingEvent i k c r).directory = s.directory := by
  rw [State.endingEvent_frame]
@[simp] theorem State.endingEvent_op : (s.endingEvent i k c r).op = s.op := by
  rw [State.endingEvent_frame]
@[simp] theorem State.endingEvent_pendingRemovals :
    (s.endingEvent i k c r).pendingRemovals = s.pendingRemovals := by
  rw [State.endingEvent_frame]
@[simp] theorem State.endingEvent_lookups : (s.endingEvent i k c r).lookups = s.lookups := by
  rw [State.endingEvent_frame]
@[simp] theorem State.endingEvent_lines : (s.endingEvent i k c r).lines = s.lines := by
  rw [State.endingEvent_frame]
@[simp] theorem State.endingEvent_chans : (s.endingEvent i k c r).chans = s.chans := by
  rw [State.endingEvent_frame]
@[simp] theorem State.endingEvent_wheel : (s.endingEvent i k c r).wheel = s.wheel := by
  rw [State.endingEvent_frame]
@[simp] theorem State.endingEvent_visits : (s.endingEvent i k c r).visits = s.visits := by
  rw [State.endingEvent_frame]

variable (a : Nat)

@[simp] theorem State.lowerLive_freeBlocks : (s.lowerLive a).freeBlocks = s.freeBlocks := by
  rw [State.lowerLive_frame]
@[simp] theorem State.lowerLive_poolHold : (s.lowerLive a).poolHold = s.poolHold := by
  rw [State.lowerLive_frame]
@[simp] theorem State.lowerLive_port : (s.lowerLive a).port = s.port := by
  rw [State.lowerLive_frame]
@[simp] theorem State.lowerLive_accounts : (s.lowerLive a).accounts = s.accounts := by
  rw [State.lowerLive_frame]
@[simp] theorem State.lowerLive_slots : (s.lowerLive a).slots = s.slots := by
  rw [State.lowerLive_frame]
@[simp] theorem State.lowerLive_lines : (s.lowerLive a).lines = s.lines := by
  rw [State.lowerLive_frame]
@[simp] theorem State.lowerLive_chans : (s.lowerLive a).chans = s.chans := by
  rw [State.lowerLive_frame]
@[simp] theorem State.lowerLive_wheel : (s.lowerLive a).wheel = s.wheel := by
  rw [State.lowerLive_frame]
@[simp] theorem State.lowerLive_visits : (s.lowerLive a).visits = s.visits := by
  rw [State.lowerLive_frame]
@[simp] theorem State.lowerLive_directory :
    (s.lowerLive a).directory =
      s.directory.map (fun r => if r.addr = a then { r with live := r.live - 1 } else r) := by
  rw [State.lowerLive_frame]

end

/-! The state after an ending, field by field. -/

section
variable {s : State} {t : Tag} {e : Entry} (k : Ending) (h : s.entry t = some e)
include h

theorem State.endEntry_slots :
    (s.endEntry k t).slots =
      tblSet (fun _ => freshSlot) s.slots t.slot { s.slot t.slot with last := k, entry := none } := by
  simp [State.endEntry_of_some k h, State.freeSlot, State.setSlot, State.slot]

theorem State.slot_endEntry :
    (s.endEntry k t).slot t.slot = { s.slot t.slot with last := k, entry := none } := by
  rw [State.slot, State.endEntry_slots k h, tblGet_tblSet]

theorem State.slot_endEntry_ne {i : Nat} (hi : i ≠ t.slot) : (s.endEntry k t).slot i = s.slot i := by
  rw [State.slot, State.endEntry_slots k h, tblGet_tblSet_ne _ _ _ hi, State.slot]

theorem State.endEntry_freeBlocks : (s.endEntry k t).freeBlocks = e.blocks.reverse ++ s.freeBlocks := by
  simp [State.endEntry_of_some k h]

theorem State.endEntry_directory :
    (s.endEntry k t).directory =
      s.directory.map (fun r => if r.addr = e.addr then { r with live := r.live - 1 } else r) := by
  simp [State.endEntry_of_some k h]

theorem State.endEntry_accounts :
    (s.endEntry k t).accounts = (s.endingEvent e.account k e.charge (s.refundFor k e)).accounts := by
  have ha : ∀ (u : State) i c r, u.accounts = s.accounts →
      (u.endingEvent i k c r).accounts = (s.endingEvent i k c r).accounts := by
    intro u i c r hu
    have hi : u.acct i = s.acct i := by rw [State.acct, State.acct, hu]
    cases k <;> simp [State.endingEvent, State.commit_eq, State.setAcct, hu, hi]
  simp [State.endEntry_of_some k h, ha]

theorem State.endEntry_lines : (s.endEntry k t).lines = (s.leavePlace t e).lines := by
  simp only [State.endEntry_of_some k h, State.freeSlot_lines, State.lowerLive_lines,
    State.endingEvent_lines, State.leavePlace]
  cases e.state <;> simp [State.leaveSlot, State.unbindLines] <;> cases e.wheel <;> simp

theorem State.endEntry_chans : (s.endEntry k t).chans = (s.leavePlace t e).chans := by
  simp only [State.endEntry_of_some k h, State.freeSlot_chans, State.lowerLive_chans,
    State.endingEvent_chans, State.leavePlace]
  cases e.state <;> simp [State.leaveSlot, State.leaveBand, State.setChan, State.chan] <;>
    cases e.wheel <;> simp

theorem State.endEntry_wheel : (s.endEntry k t).wheel = (s.leavePlace t e).wheel := by
  simp only [State.endEntry_of_some k h, State.freeSlot_wheel, State.lowerLive_wheel,
    State.endingEvent_wheel, State.leavePlace]
  cases e.state <;> simp [State.leaveSlot] <;>
    cases e.wheel <;> simp [State.leaveWheel, State.setWheelList, State.wheelList]

theorem State.endEntry_visits : (s.endEntry k t).visits = (s.leavePlace t e).visits := by
  simp only [State.endEntry_of_some k h, State.freeSlot_visits, State.lowerLive_visits,
    State.endingEvent_visits, State.leavePlace]
  cases e.state <;> simp [State.leaveSlot] <;> cases e.wheel <;> simp [State.leaveWheel]

end

/-! ### The live count and the removal that an ending begins (R15, R16) -/

/-- R15: without a record of the address there is no removal to begin. -/
theorem State.lowerLive_of_no_record {s : State} {a : Nat} (h : s.record a = none) :
    (s.lowerLive a).op = s.op ∧ (s.lowerLive a).pendingRemovals = s.pendingRemovals ∧
      (s.lowerLive a).lookups = s.lookups := by
  simp [State.lowerLive, State.record_updateRecord, h]

/-- R15, R16: a RETIRING record that comes to live count 0 has its removal begun, or made pending. -/
theorem State.lowerLive_of_record {s : State} {a : Nat} {r : Subscriber} (h : s.record a = some r) :
    let begins := r.state = .retiring ∧ r.live ≤ 1
    (s.lowerLive a).op = (if begins ∧ s.op = none then some (.removal a true) else s.op) ∧
    (s.lowerLive a).pendingRemovals =
      (if begins ∧ s.op ≠ none ∧ a ∉ s.pendingRemovals then s.pendingRemovals ++ [a]
       else s.pendingRemovals) ∧
    (s.lowerLive a).lookups =
      (if begins ∧ s.op = none then s.lookups.map (fun l => { l with held := true }) else s.lookups) := by
  intro begins
  obtain ⟨-, ha⟩ := State.record_eq_some h
  have hu : (s.updateRecord a (fun q => { q with live := q.live - 1 })).record a =
      some { r with live := r.live - 1 } := by
    rw [State.record_updateRecord s a a (fun q => { q with live := q.live - 1 }) (fun _ => rfl), h]
    simp [ha]
  have hb : begins ↔ r.state = .retiring ∧ r.live - 1 = 0 := and_congr_right fun _ => by omega
  simp only [hb, State.lowerLive, hu, Bool.and_eq_true, decide_eq_true_eq]
  by_cases hl : r.state = .retiring ∧ r.live - 1 = 0
  · by_cases ho : s.op = none
    · simp [hl, State.endingRemoval_eq, ho]
    · by_cases hp : a ∈ s.pendingRemovals <;> simp [hl, State.endingRemoval_eq, ho, hp]
  · simp [hl]

section
variable {s : State} {t : Tag} {e : Entry} (k : Ending) (h : s.entry t = some e)
include h

theorem State.endEntry_of_no_record (hr : s.record e.addr = none) :
    (s.endEntry k t).op = s.op ∧ (s.endEntry k t).pendingRemovals = s.pendingRemovals := by
  have hr' : (State.endingEvent ((s.giveBlocks e.blocks).leavePlace t e) e.account k e.charge
      (s.refundFor k e)).record e.addr = none := by simpa [State.record] using hr
  obtain ⟨ho, hp, -⟩ := State.lowerLive_of_no_record hr'
  simp [State.endEntry_of_some k h, ho, hp]

/-- R15, R16, R91: the operation, the pending removals and the lookups after an ending. -/
theorem State.endEntry_of_record {r : Subscriber} (hr : s.record e.addr = some r) :
    let begins := r.state = .retiring ∧ r.live ≤ 1
    let dropped := s.lookups.filter (fun l => !isLaunchOf t l.user)
    (s.endEntry k t).op = (if begins ∧ s.op = none then some (.removal e.addr true) else s.op) ∧
    (s.endEntry k t).pendingRemovals =
      (if begins ∧ s.op ≠ none ∧ e.addr ∉ s.pendingRemovals then s.pendingRemovals ++ [e.addr]
       else s.pendingRemovals) ∧
    (s.endEntry k t).lookups =
      (if begins ∧ s.op = none then dropped.map (fun l => { l with held := true }) else dropped) := by
  have hr' : (State.endingEvent ((s.giveBlocks e.blocks).leavePlace t e) e.account k e.charge
      (s.refundFor k e)).record e.addr = some r := by simpa [State.record] using hr
  obtain ⟨ho, hp, hl⟩ := State.lowerLive_of_record hr'
  simp [State.endEntry_of_some k h, ho, hp, hl]

end

/-! ### Lines, channels, wheel, accounts and notice causes at an ending -/

theorem State.line_unbindLines (s : State) (t : Tag) (n : LineNo) :
    (s.unbindLines t).line n = (s.line n).unbind t := by
  fin_cases n <;> rfl

theorem Line.unbind_eq (l : Line) (t : Tag) : ∃ b, l.unbind t = { l with bound := b } := by
  unfold Line.unbind
  split
  · exact ⟨none, rfl⟩
  · exact ⟨l.bound, rfl⟩

/-- R91: an ending can change a line's binding only. -/
theorem State.line_endEntry (s : State) (k : Ending) (t : Tag) (n : LineNo) :
    ∃ b, (s.endEntry k t).line n = { s.line n with bound := b } := by
  cases h : s.entry t with
  | none => exact ⟨(s.line n).bound, by rw [State.endEntry_of_none k h]⟩
  | some e =>
    have hl : (s.endEntry k t).line n = (s.leavePlace t e).line n := by
      rw [State.line, State.endEntry_lines k h, State.line]
    rw [hl]
    have same : ∀ u : State, u.lines = s.lines → ∃ b, u.line n = { s.line n with bound := b } :=
      fun u hu => ⟨(s.line n).bound, by rw [State.line, hu, State.line]⟩
    unfold State.leavePlace
    cases e.state with
    | assembling =>
      obtain ⟨b, hb⟩ := (s.line n).unbind_eq t
      exact ⟨b, (s.line_unbindLines t n).trans hb⟩
    | waiting => exact same _ (by simp [State.leaveSlot]; cases e.wheel <;> simp)
    | listening => exact same _ (by simp [State.leaveSlot]; cases e.wheel <;> simp)
    | queued => exact same _ (by simp)
    | onAir => exact same _ (by simp)

/-- R91: an ending can take its tag off the bands of a channel, and leaves the rest of the channel. -/
theorem State.chan_endEntry (s : State) (k : Ending) (t : Tag) (c : Chan) :
    ∃ us ns, us.Sublist (s.chan c).urgent ∧ ns.Sublist (s.chan c).normal ∧
      (s.endEntry k t).chan c = { s.chan c with urgent := us, normal := ns } := by
  have same : ∀ u : State, u.chans = s.chans → ∃ us ns, us.Sublist (s.chan c).urgent ∧
      ns.Sublist (s.chan c).normal ∧ u.chan c = { s.chan c with urgent := us, normal := ns } :=
    fun u hu => ⟨_, _, .refl _, .refl _, by rw [State.chan, hu, State.chan]⟩
  cases h : s.entry t with
  | none => exact same _ (by rw [State.endEntry_of_none k h])
  | some e =>
    have hl : (s.endEntry k t).chan c = (s.leavePlace t e).chan c := by
      rw [State.chan, State.endEntry_chans k h, State.chan]
    rw [hl]
    unfold State.leavePlace
    cases e.state with
    | assembling => exact same _ (by simp)
    | waiting => exact same _ (by simp [State.leaveSlot]; cases e.wheel <;> simp)
    | listening => exact same _ (by simp [State.leaveSlot]; cases e.wheel <;> simp)
    | onAir => exact same _ (by simp)
    | queued =>
      by_cases hc : c = e.chan
      · subst hc
        exact ⟨_, _, List.erase_sublist, List.erase_sublist, State.chan_setChan ..⟩
      · exact ⟨_, _, .refl _, .refl _, State.chan_setChan_ne s _ hc⟩

/-- R34, R36: the account of an ending keeps its state and its reference count. -/
theorem Account.endPage_refs (a : Account) (k : Ending) (c r : Nat) :
    (a.endPage k c r).refs = a.refs ∧ (a.endPage k c r).state = a.state := by
  cases k <;> exact ⟨rfl, rfl⟩

theorem Account.endUnpaid_refs (a : Account) (k : Ending) (c : Nat) :
    (a.endUnpaid k c).refs = a.refs ∧ (a.endUnpaid k c).state = a.state := by
  cases k <;> exact ⟨rfl, rfl⟩

/-- R36: an ending reaches no other account. -/
theorem State.acct_endingEvent_ne (s : State) {i j : Nat} (k : Ending) (c r : Nat) (hj : j ≠ i) :
    (s.endingEvent i k c r).acct j = s.acct j := by
  cases k with
  | delivered | sentOnly | none => exact State.acct_setAcct_ne _ _ hj
  | expired | cancelled | aborted => exact State.acct_commit_ne _ _ hj

theorem State.acct_endingEvent_refs (s : State) (i : Nat) (k : Ending) (c r j : Nat) :
    ((s.endingEvent i k c r).acct j).refs = (s.acct j).refs ∧
      ((s.endingEvent i k c r).acct j).state = (s.acct j).state := by
  by_cases hj : j = i
  · subst hj
    cases k <;> simp [State.endingEvent, Account.recompute, Account.endPage_refs, Account.endUnpaid_refs]
  · rw [State.acct_endingEvent_ne s k c r hj]
    exact ⟨rfl, rfl⟩

/-- R34: an ending leaves every reference count and every account's state. -/
theorem State.acct_endEntry_refs (s : State) (k : Ending) (t : Tag) (j : Nat) :
    ((s.endEntry k t).acct j).refs = (s.acct j).refs ∧
      ((s.endEntry k t).acct j).state = (s.acct j).state := by
  cases h : s.entry t with
  | none => rw [State.endEntry_of_none k h]; exact ⟨rfl, rfl⟩
  | some e =>
    have ha : (s.endEntry k t).acct j = (s.endingEvent e.account k e.charge (s.refundFor k e)).acct j := by
      rw [State.acct, State.endEntry_accounts k h, State.acct]
    rw [ha]
    exact s.acct_endingEvent_refs ..

/-- R24, R35: the notice causes that an ending can raise are POOL_HOLD and OVERRUN. -/
theorem State.endEntry_port (s : State) (k : Ending) (t : Tag) :
    ∃ m : BitVec 8, m.getLsbD 7 = false ∧
      (s.endEntry k t).port = { s.port with causes := s.port.causes ||| m } := by
  cases h : s.entry t with
  | none => exact ⟨0, rfl, by simp [State.endEntry_of_none k h]⟩
  | some e =>
    have event : ∀ (u : State) i c r, ∃ m : BitVec 8, m.getLsbD 7 = false ∧
        (u.endingEvent i k c r).port = { u.port with causes := u.port.causes ||| m } := by
      intro u i c r
      cases k
      case expired | cancelled | aborted =>
        simp only [State.endingEvent, State.commit_eq]
        split
        · exact ⟨0x02, rfl, rfl⟩
        · exact ⟨0, rfl, by simp⟩
      all_goals exact ⟨0, rfl, by simp [State.endingEvent]⟩
    obtain ⟨m, hm, hp⟩ := event ((s.giveBlocks e.blocks).leavePlace t e) e.account e.charge
      (s.refundFor k e)
    have hu : (s.endEntry k t).port =
        { (s.giveBlocks e.blocks).port with causes := (s.giveBlocks e.blocks).port.causes ||| m } := by
      rw [State.endEntry_of_some k h, State.freeSlot_port, State.lowerLive_port, hp, State.leavePlace_port]
    rw [hu, State.giveBlocks_eq]
    dsimp only
    split
    · exact ⟨0x04 ||| m, by simpa using hm, by rw [BitVec.or_assoc]⟩
    · exact ⟨m, hm, rfl⟩

/-! ### The live entries of the Pending Page Table -/

theorem State.mem_liveEntries {s : State} {e : Entry} :
    e ∈ s.liveEntries ↔ ∃ i, i < 256 ∧ (s.slot i).entry = some e := by
  simp [State.liveEntries, slotIndices]

theorem State.liveEntries_congr {s u : State} (h : ∀ i, (u.slot i).entry = (s.slot i).entry) :
    u.liveEntries = s.liveEntries := by
  simp [State.liveEntries, h]

theorem State.liveEntries_of_slots {s u : State} (h : u.slots = s.slots) :
    u.liveEntries = s.liveEntries :=
  State.liveEntries_congr fun i => by rw [State.slot, State.slot, h]

/-- R85: under `SlotsOk` a live entry stands in one of the 256 slots. -/
theorem State.SlotsOk.lt {s : State} (hs : s.SlotsOk) {i : Nat} {e : Entry}
    (h : (s.slot i).entry = some e) : i < 256 := by
  by_contra hi
  rw [hs i (by omega)] at h
  cases h

theorem State.SlotsOk.lt_of_entry {s : State} (hs : s.SlotsOk) {t : Tag} {e : Entry}
    (h : s.entry t = some e) : t.slot < 256 := hs.lt (State.entry_eq_some.1 h).2

/-- Two tables that differ in one slot have, up to order, the same live entries beside that slot's. -/
theorem State.liveEntries_split {s u : State} {i : Nat} (hi : i < 256)
    (h : ∀ j, j ≠ i → (u.slot j).entry = (s.slot j).entry) :
    ∃ rest, s.liveEntries.Perm ((s.slot i).entry.toList ++ rest) ∧
      u.liveEntries.Perm ((u.slot i).entry.toList ++ rest) := by
  have hperm : slotIndices.Perm (i :: slotIndices.erase i) :=
    List.perm_cons_erase (by simpa [slotIndices] using hi)
  have hnodup : slotIndices.Nodup := List.nodup_range
  have split : ∀ f : Nat → Option Entry,
      (slotIndices.filterMap f).Perm ((f i).toList ++ (slotIndices.erase i).filterMap f) := by
    intro f
    refine (hperm.filterMap f).trans (.of_eq ?_)
    cases hf : f i <;> simp [hf]
  have rest : (slotIndices.erase i).filterMap (fun j => (u.slot j).entry) =
      (slotIndices.erase i).filterMap (fun j => (s.slot j).entry) := by
    refine List.filterMap_congr fun j hj => h j ?_
    rintro rfl
    exact hnodup.not_mem_erase hj
  exact ⟨_, split _, rest ▸ split _⟩

/-- R91: an ended entry is one of the live entries less. -/
theorem State.liveEntries_endEntry {s : State} (hs : s.SlotsOk) {t : Tag} {e : Entry} (k : Ending)
    (h : s.entry t = some e) : s.liveEntries.Perm (e :: (s.endEntry k t).liveEntries) := by
  obtain ⟨rest, hold, hnew⟩ := State.liveEntries_split (hs.lt_of_entry h)
    (s := s) (u := s.endEntry k t) (fun j hj => by rw [State.slot_endEntry_ne k h hj])
  rw [(State.entry_eq_some.1 h).2] at hold
  rw [State.slot_endEntry k h] at hnew
  exact hold.trans (hnew.symm.cons e)

/-- R82: an entry put into a free slot is one of the live entries more. -/
theorem State.liveEntries_allocate {s u : State} {i : Nat} {e : Entry} (hi : i < 256)
    (free : (s.slot i).entry = none) (new : (u.slot i).entry = some e)
    (others : ∀ j, j ≠ i → u.slot j = s.slot j) : u.liveEntries.Perm (e :: s.liveEntries) := by
  obtain ⟨rest, hold, hnew⟩ := State.liveEntries_split (s := s) hi (fun j hj => by rw [others j hj])
  rw [free] at hold
  rw [new] at hnew
  exact hnew.trans (hold.symm.cons e)

/-- An entry rewritten in its slot takes the place of the old one among the live entries. -/
theorem State.liveEntries_setEntry {s : State} (hs : s.SlotsOk) {t : Tag} {e : Entry} (e' : Entry)
    (h : s.entry t = some e) :
    ∃ rest, s.liveEntries.Perm (e :: rest) ∧ (s.setEntry t.slot e').liveEntries.Perm (e' :: rest) := by
  obtain ⟨rest, hold, hnew⟩ := State.liveEntries_split (hs.lt_of_entry h)
    (s := s) (u := s.setEntry t.slot e') (fun j hj => by rw [State.slot_setEntry_ne s e' hj])
  rw [(State.entry_eq_some.1 h).2] at hold
  rw [State.slot_setEntry] at hnew
  exact ⟨rest, hold, hnew⟩

theorem State.anyLive_eq_false {s : State} : s.anyLive = false ↔ s.liveEntries = [] := by
  simp [State.anyLive, State.liveEntries, slotIndices, List.filterMap_eq_nil_iff]

end Sys2Proof.Machine
end

/-! ## What a step is made of

Every step of the part is a chain of the few kinds of change listed in `Change`; an invariant that each of
them keeps is kept by every step (`step_changes`). Each kind names the state that it leaves, with what its
own block keeps of it. -/

section

namespace Sys2Proof.Machine

/-- R160 to R166: the registers of the Command Port as `State.PortOk` has them. -/
structure Port.Ok (p : Port) : Prop where
  index : p.readIdx ≤ p.result.length
  ready : p.ready = true ↔ p.readIdx < p.result.length
  nibble : p.fourBit = false → p.nibble = none
  causes : p.causes.getLsbD 7 = false
  enables : p.enables.getLsbD 7 = false
  sub : ∀ a, p.latch.sub = some a → a ≤ 4194303
  acct : ∀ i, p.latch.acct = some i → i ≤ 1023

/-- R102, R104, R154: the clock and the cursors as `State.PortOk` has them. -/
structure State.ClockOk (s : State) : Prop where
  time : s.time ≤ 4294967295
  head : s.head < 64
  pointer : s.tablePtr < 2048
  sweep : s.settleCursor ≤ 1024

theorem State.portOk_iff {s : State} : s.PortOk ↔ s.port.Ok ∧ s.ClockOk :=
  ⟨fun ⟨h1, h2, h3, h4, h5, h6, h7, h8, h9, h10, h11⟩ => ⟨⟨h1, h2, h3, h4, h5, h6, h7⟩, h8, h9, h10, h11⟩,
   fun ⟨⟨h1, h2, h3, h4, h5, h6, h7⟩, h8, h9, h10, h11⟩ => ⟨h1, h2, h3, h4, h5, h6, h7, h8, h9, h10, h11⟩⟩

/-- The state with those registers blanked that no property of the tables, of the records, of the entries or
of the lines, channels and monitor reads; the Command Port's are among them. -/
def State.blocks (s : State) : State :=
  { s with
    lookups := [], cursorKey := 0, cursorMode := .forward, markMode := .off, poolHold := false
    staging := none, visits := [], ab := State.reset.ab, servicePtr := 3, port := freshPort
    out := freshOutputs, lateTicks := [], pending := [] }

/-- State `s` with those registers as they stand in `u`. -/
def State.withRegisters (s u : State) : State :=
  { s with
    lookups := u.lookups, cursorKey := u.cursorKey, cursorMode := u.cursorMode, markMode := u.markMode
    poolHold := u.poolHold, staging := u.staging, visits := u.visits, ab := u.ab
    servicePtr := u.servicePtr, port := u.port, out := u.out, lateTicks := u.lateTicks
    pending := u.pending }

/-- R3: every block at its power-on values, the operation `o` in progress, and the registers as in `u`. -/
def State.restarted (o : Option Operation) (u : State) : State :=
  State.withRegisters { State.reset with op := o } u

theorem State.eq_withRegisters {s t : State} (frame : t.blocks = s.blocks) : t = s.withRegisters t :=
  (congrArg (fun u => State.withRegisters u t) frame :)

/-- What the account, the subscriber and the pool know an entry by (R83, R91): a rewritten entry keeps it. -/
structure Entry.SameCore (e e' : Entry) : Prop where
  addr : e'.addr = e.addr
  serial : e'.serial = e.serial
  blocks : e'.blocks = e.blocks
  account : e'.account = e.account
  charge : e'.charge = e.charge

/-- A change of an account that keeps its ranges, its reference count and held; only an account that no
record names, nor the one being added, may become UNUSED (R32). -/
structure State.AccountMay (s : State) (i : Nat) (a : Account) : Prop where
  ok : (s.acct i).Ok → a.Ok
  refs : a.refs = (s.acct i).refs
  held : a.held = (s.acct i).held
  state : a.state = .unused → (s.acct i).state = .unused ∨ ((s.acct i).refs = 0 ∧ s.op = none)

/-- What an operation that takes time needs to begin (R2, R9, R14). -/
def State.MayBegin (s : State) (o : Operation) : Prop :=
  match o with
  | .autoclear => False
  | .addition r => s.record r.addr = none ∧ s.directory.length < dirCapacity s.partition ∧
      (s.acct r.account).state ≠ .unused ∧ r.live = 0
  | .removal a _ => ∃ r, s.record a = some r ∧ r.live = 0
  | .rebuild p => s.directory.length ≤ dirCapacity p ∧ s.liveEntries = []
  | .purge _ => True

/-- R12: LINK ACCOUNT on the record at `a`, now naming account `old`. -/
def State.linked (s : State) (a old new : Nat) : State :=
  (s.moveRefs old new).hostWrite a (fun r => { r with account := new })

/-- The changes of which the steps are made. -/
inductive Change (s : State) : State → Prop
  /-- registers, queues and cursors of their own, the Command Port's in their ranges -/
  | registers (u : State) (port : s.port.Ok → u.port.Ok) : Change s (s.withRegisters u)
  /-- the clock and the cursors -/
  | clock (time head pointer sweep : Nat)
      (ok : s.ClockOk → time ≤ 4294967295 ∧ head < 64 ∧ pointer < 2048 ∧ sweep ≤ 1024) :
      Change s { s with time := time, head := head, tablePtr := pointer, settleCursor := sweep }
  /-- R145: the monitor's records and its enable flag -/
  | monitor (on : Bool) (m : Duo Monitor)
      (ok : s.MonitorOk → State.MonitorOk { s with monitorOn := on, mons := m }) :
      Change s { s with monitorOn := on, mons := m }
  /-- R58: the line records -/
  | lines (q : Quad Line) (ok : s.LinesOk → ∀ n, (q.get n).Ok (s.threshold n)) :
      Change s { s with lines := q }
  /-- R121: a channel record -/
  | channel (c : Chan) (v : Channel) (ok : (s.chan c).Ok → v.Ok) : Change s (s.setChan c v)
  /-- R41: a field of the Setting Tables takes effect -/
  | field (f : Field) (v : Nat) (h : fieldAt f.first = some f) : Change s (s.writeField f v)
  /-- R68: a text cell is written -/
  | text (a : Nat) (b : Byte) : Change s { s with text := tblInsert s.text a b }
  /-- R106: a list of the Retry Wheel -/
  | wheel (w : Nat) (ts : List Tag) : Change s (s.setWheelList w ts)
  /-- a live entry is rewritten -/
  | entry (t : Tag) (e e' : Entry) (h : s.entry t = some e) (same : e.SameCore e') :
      Change s (s.setEntry t.slot e')
  /-- R91: a page ends -/
  | ending (k : Ending) (t : Tag) : Change s (s.endEntry k t)
  /-- R82: a page is admitted -/
  | admission (src : Source) (h : Header) (i : Nat) (r : Subscriber) (serial : Nat) (idle : s.op = none)
      (quiet : s.pendingRemovals = []) (verdict : s.verdict h = .admitted i r serial) :
      Change s (s.admitPage i src h r serial)
  /-- R26: an account but for held and its references -/
  | account (i : Nat) (a : Account) (may : s.AccountMay i a) : Change s (s.setAcct i a)
  /-- the records, but for their addresses, accounts and live counts -/
  | records (f : Subscriber → Subscriber)
      (same : ∀ r, (f r).addr = r.addr ∧ (f r).account = r.account ∧ (f r).live = r.live) :
      Change s { s with directory := s.directory.map f }
  /-- R12 -/
  | link (a new : Nat) (r : Subscriber) (found : s.record a = some r)
      (named : (s.acct new).state ≠ .unused) : Change s (s.linked a r.account new)
  /-- R16: an operation that takes time begins -/
  | begins (o : Operation) (idle : s.op = none) (may : s.MayBegin o) : Change s { s with op := some o }
  /-- R100: the purge passes on -/
  | purges (i j : Nat) (h : s.op = some (.purge i)) : Change s { s with op := some (.purge j) }
  /-- R101 -/
  | purged (i : Nat) (h : s.op = some (.purge i)) : Change s s.completeOp
  /-- R10 -/
  | adds (r : Subscriber) (h : s.op = some (.addition r)) :
      Change s (State.completeOp ({ s with directory := insertRecord r s.directory }.raiseRefs r.account))
  /-- R17 -/
  | removes (a : Nat) (byEnding : Bool) (h : s.op = some (.removal a byEnding)) :
      Change s (s.removeRecord a).completeOp
  /-- R2 -/
  | rebuilds (p : Nat) (h : s.op = some (.rebuild p)) :
      Change s (State.completeOp { s with partition := p, freeBlocks := List.range (poolCapacity p) })
  /-- R3: every block at its power-on values, the autoclear in progress or complete -/
  | restarts (o : Option Operation) (clearing : o = none ∨ o = some .autoclear) (u : State)
      (port : s.port.Ok → u.port.Ok) : Change s (State.restarted o u)

/-- A chain of changes. -/
def Changes (s t : State) : Prop := Relation.ReflTransGen Change s t

theorem Changes.refl (s : State) : Changes s s := Relation.ReflTransGen.refl

theorem Changes.trans {s t u : State} (h : Changes s t) (h' : Changes t u) : Changes s u :=
  Relation.ReflTransGen.trans h h'

theorem Changes.tail {s t u : State} (h : Changes s t) (h' : Change t u) : Changes s u :=
  Relation.ReflTransGen.tail h h'

/-- An invariant that every change keeps is kept by every chain of changes. -/
theorem Changes.keep {P : State → Prop} (hP : ∀ s t, Change s t → P s → P t) {s t : State}
    (h : Changes s t) (hs : P s) : P t := by
  induction h with
  | refl => exact hs
  | tail _ hc ih => exact hP _ _ hc ih

/-! ### Registers of the port and of the links -/

section
variable {s u : State} (h : Changes s u)
include h

/-- A change of registers, the Command Port's within their ranges. -/
theorem Changes.registers {t : State} (frame : t.blocks = u.blocks) (port : u.port.Ok → t.port.Ok) :
    Changes s t := by
  rw [State.eq_withRegisters frame]
  exact h.tail (.registers t port)

/-- A change of registers that leaves the Command Port as it is. -/
theorem Changes.aside {t : State} (frame : t.blocks = u.blocks) (port : t.port = u.port) : Changes s t :=
  h.registers frame fun hp => port ▸ hp

/-- R3: every block at its power-on values. -/
theorem Changes.restarts {t : State} (o : Option Operation) (clearing : o = none ∨ o = some .autoclear)
    (frame : t.blocks = State.blocks { State.reset with op := o }) (port : u.port.Ok → t.port.Ok) :
    Changes s t := by
  rw [State.eq_withRegisters frame]
  exact h.tail (.restarts o clearing t port)

/-- A change of the clock and the cursors. -/
theorem Changes.clock {t : State}
    (frame : t = { u with time := t.time, head := t.head, tablePtr := t.tablePtr
                          settleCursor := t.settleCursor })
    (ok : u.ClockOk → t.ClockOk) : Changes s t := by
  rw [frame]
  exact h.tail (.clock _ _ _ _ fun hu => ⟨(ok hu).time, (ok hu).head, (ok hu).pointer, (ok hu).sweep⟩)

theorem Changes.setPort (p : Port) (ok : u.port.Ok → p.Ok) : Changes s (u.setPort p) :=
  h.registers rfl ok

theorem Changes.setFrame (f : Option Frame) : Changes s (u.setFrame f) :=
  h.setPort _ fun hp => { hp with }

theorem Changes.setOutcome (f : Frame) (o : SubmitOutcome) : Changes s (u.setOutcome f o) :=
  h.setFrame _

theorem Changes.setLatch (l : Latch) (sub : u.port.Ok → ∀ a, l.sub = some a → a ≤ 4194303)
    (acct : u.port.Ok → ∀ i, l.acct = some i → i ≤ 1023) : Changes s (u.setLatch l) :=
  h.setPort _ fun hp => { hp with sub := sub hp, acct := acct hp }

theorem Changes.setResult {bs : List Byte} (hbs : bs ≠ []) : Changes s (u.setResult bs) :=
  h.setPort (u.port.answered bs) fun hp =>
    { hp with
      index := Nat.zero_le _
      ready := by simpa [Port.answered] using List.length_pos_of_ne_nil hbs }

theorem Changes.answer (c : Code) (bs : List Byte) : Changes s (u.answer c bs) :=
  h.setResult (List.cons_ne_nil _ _)

theorem Changes.clearResult : Changes s u.clearResult :=
  h.setPort _ fun hp => { hp with index := Nat.zero_le _, ready := by simp }

theorem Changes.setWidth (four : Bool) : Changes s (u.setWidth four) :=
  h.setPort _ fun hp => { hp with nibble := fun _ => rfl }

theorem Changes.setCauses (m : BitVec 8) (hm : u.port.causes.getLsbD 7 = false → m.getLsbD 7 = false) :
    Changes s (u.setPort { u.port with causes := m }) :=
  h.setPort _ fun hp => { hp with causes := hm hp.causes }

theorem Changes.raise (c : Cause) : Changes s (u.raise c) :=
  h.setCauses _ fun hc => by cases c <;> simpa [causeBit] using hc

theorem Changes.askLookup (v : LookupUser) : Changes s (u.askLookup v) := h.aside rfl rfl
theorem Changes.dropLookup (p : LookupUser → Bool) : Changes s (u.dropLookup p) := h.aside rfl rfl
theorem Changes.popLookup : Changes s u.popLookup := h.aside rfl rfl
theorem Changes.passVisit (w : Nat) : Changes s (u.passVisit w) := h.aside rfl rfl
theorem Changes.drive (b : Byte) : Changes s (u.drive b) := h.aside rfl rfl
theorem Changes.setEnc (c : Chan) (bs : List Byte) : Changes s (u.setEnc c bs) := h.aside rfl rfl
theorem Changes.setRcv (n : LineNo) (bs : List Byte) : Changes s (u.setRcv n bs) := h.aside rfl rfl
theorem Changes.setAbSlot (n : LineNo) (v : AbSlot) : Changes s (u.setAbSlot n v) := h.aside rfl rfl
theorem Changes.setStaging (st : Option Staging) : Changes s { u with staging := st } := h.aside rfl rfl

/-- R24: the hold recomputed. -/
theorem Changes.recomputePool : Changes s u.recomputePool := by
  rw [State.recomputePool_eq]
  dsimp only
  split
  · exact (h.raise .poolHold).aside (u := u.raise .poolHold) rfl rfl
  · exact h.aside rfl rfl

end

end Sys2Proof.Machine
end

/-! ## The shared operations as chains of changes -/

section

namespace Sys2Proof.Machine

/-! ### Lines (R58 to R72) -/

theorem Line.Ok.rebind {l : Line} {h : Nat} (hl : l.Ok h) (b : Option Tag) :
    Line.Ok { l with bound := b } h := { hl with }

theorem Line.Ok.of_rebind {l : Line} {h : Nat} {b : Option Tag} (hl : Line.Ok { l with bound := b } h) :
    l.Ok h := hl.rebind l.bound

/-- R62: the fill hold recomputed for a count within the FIFO. -/
theorem Line.Ok.refill {l : Line} {h : Nat} (fifo : l.fifo.length ≤ 64)
    (disabled : l.state = .disabled → l.fifo = [])
    (header : l.header.length ≤ 5 ∧ (l.state = .header → l.header.length < 5)) (timer : l.timer ≤ 60)
    (counters : l.junk ≤ 65535 ∧ l.accepted ≤ 65535 ∧ l.refused ≤ 65535) : (l.refill h).Ok h where
  fifo := fifo
  disabled := disabled
  up hu := by simp [Line.refill, fillHoldOf] at hu ⊢; exact .inl hu
  down hd := by simp [Line.refill, fillHoldOf] at hd ⊢; omega
  header := header
  timer := timer
  counters := counters

/-- R60: a line that takes its head byte is still as `Line.Ok` says. -/
theorem Line.Ok.takeHead {l : Line} {h : Nat} (hl : l.Ok h) : (l.takeHead h).Ok h :=
  Line.Ok.refill (by have := hl.fifo; simp only [List.length_tail]; omega)
    (fun hd => by simp [hl.disabled hd]) hl.header hl.timer hl.counters

theorem Line.Ok.receive {l : Line} {h : Nat} (hl : l.Ok h) (b : Byte) (hd : l.state ≠ .disabled)
    (room : l.fifo.length < 64) : (l.receive b h).Ok h :=
  Line.Ok.refill (by simpa using room) (fun h => absurd h hd) hl.header hl.timer hl.counters

theorem satAdd_le (m v d : Nat) : satAdd m v d ≤ m := Nat.min_le_left ..

theorem Line.Ok.refuse {l : Line} {h : Nat} (hl : l.Ok h) (reason : Reason) (peer : Nat) :
    (l.refuse reason peer).Ok h :=
  { hl with counters := ⟨hl.counters.1, hl.counters.2.1, satAdd_le ..⟩ }

/-- R72: an emptied line is as `Line.Ok` says where the threshold is in its range. -/
theorem Line.Ok.emptied {l : Line} {h : Nat} (hl : l.Ok h) (hh : 8 ≤ h) (st : LineState) :
    (l.emptied st).Ok h where
  fifo := Nat.zero_le _
  disabled _ := rfl
  up hu := absurd (hh.trans hu) (by simp [Line.emptied])
  down _ := rfl
  header := ⟨Nat.zero_le _, fun _ => Nat.zero_lt_succ _⟩
  timer := Nat.zero_le _
  counters := hl.counters

theorem Line.Ok.abort {l : Line} {h : Nat} (hl : l.Ok h) (hh : 8 ≤ h) (c : AbortCause) :
    (l.abort c).Ok h := by
  unfold Line.abort
  dsimp only
  split
  · exact (hl.emptied hh _).refuse _ _
  · exact hl.emptied hh _

/-- A line in a state that is not HEADER nor DISABLED, as another state with the same bytes. -/
theorem Line.Ok.inState {l : Line} {h : Nat} (hl : l.Ok h) {st : LineState} (h1 : st ≠ .header)
    (h2 : st ≠ .disabled) : Line.Ok { l with state := st } h :=
  { hl with
    disabled := fun h => absurd h h2
    header := ⟨hl.header.1, fun h => absurd h h1⟩ }

theorem Line.Ok.restart {l : Line} {h : Nat} (hl : l.Ok h) : l.restart.Ok h :=
  { hl with timer := Nat.zero_le _ }

theorem Line.Ok.timed {l : Line} {h : Nat} (hl : l.Ok h) :
    Line.Ok { l with timer := satAdd 60 l.timer 1 } h :=
  { hl with timer := satAdd_le .. }

theorem Line.Ok.remaining {l : Line} {h : Nat} (hl : l.Ok h) (k : Nat) :
    Line.Ok { l with remaining := k } h := { hl with }

theorem Line.Ok.summed {l : Line} {h : Nat} (hl : l.Ok h) (b : Byte) : Line.Ok { l with sum := b } h :=
  { hl with }

theorem Line.Ok.purged {l : Line} {h : Nat} (hl : l.Ok h) : l.purged.Ok h :=
  (((hl.rebind none).remaining (l.remaining + 1)).inState (by decide) (by decide)).restart

theorem Line.Ok.refusedLine {l : Line} {h : Nat} (hl : l.Ok h) (len : Nat) (reason : Reason)
    (peer : Nat) : (l.refusedLine len reason peer).Ok h :=
  (((hl.refuse reason peer).remaining (len + 1)).inState (by decide) (by decide)).restart

theorem Line.Ok.admittedLine {l : Line} {h : Nat} (hl : l.Ok h) (len : Nat) (t : Tag) :
    (l.admittedLine len t).Ok h :=
  (((hl.rebind (some t)).remaining len).inState (by split <;> decide) (by split <;> decide)).restart

theorem Line.Ok.takeIdle {l : Line} {h : Nat} (hl : l.Ok h) (b : Byte) : (l.takeIdle b h).Ok h := by
  unfold Line.takeIdle
  split
  · exact { hl.takeHead with
      disabled := fun hd => by cases hd
      header := ⟨Nat.zero_le _, fun _ => Nat.zero_lt_succ _⟩
      timer := Nat.zero_le _ }
  · exact { hl.takeHead with counters := ⟨satAdd_le .., hl.counters.2⟩ }

theorem Line.Ok.takeText {l : Line} {h : Nat} (hl : l.Ok h) (b : Byte) : (l.takeText b h).Ok h :=
  (((hl.takeHead.summed (l.sum + b)).remaining (l.remaining - 1)).inState
    (by split <;> decide) (by split <;> decide)).restart

theorem Line.Ok.takeCheck {l : Line} {h : Nat} (hl : l.Ok h) (b : Byte) : (l.takeCheck b h).Ok h :=
  (((hl.takeHead.summed (l.sum + b)).rebind none).inState (by decide) (by decide)).restart

theorem Line.Ok.takeSkip {l : Line} {h : Nat} (hl : l.Ok h) : (l.takeSkip h).Ok h :=
  ((hl.takeHead.remaining (l.remaining - 1)).inState
    (by split <;> decide) (by split <;> decide)).restart

theorem Line.Ok.accept {l : Line} {h : Nat} (hl : l.Ok h) (t : Tag) (serial : Nat) :
    (l.accept t serial).Ok h :=
  { hl with counters := ⟨hl.counters.1, satAdd_le .., hl.counters.2.2⟩ }

theorem Line.Ok.fetch {l : Line} {h : Nat} (hl : l.Ok h) : l.fetch.Ok h := by
  unfold Line.fetch
  split <;> exact { hl with }

theorem Line.Ok.clearItems {l : Line} {h : Nat} (hl : l.Ok h) (m : Byte) : (l.clearItems m).Ok h := by
  obtain ⟨hj, ha, hr⟩ := hl.counters
  exact { hl with counters := by simp only [Line.clearItems]; refine ⟨?_, ?_, ?_⟩ <;> split <;> omega }

/-- R65: the line in HEADER that takes a byte is as `Line.Ok` says but for its header, which may now be
full. -/
theorem Line.Ok.takeHeader {l : Line} {h : Nat} (hl : l.Ok h) (hs : l.state = .header) (b : Byte)
    {st : LineState} (hd : st ≠ .disabled)
    (full : (l.takeHeader b h).header.length = 5 → st ≠ .header) :
    Line.Ok { l.takeHeader b h with state := st } h := by
  have hlt := hl.header.2 hs
  have hlen : (l.takeHeader b h).header.length = l.header.length + 1 := by
    simp [Line.takeHeader, Line.restart]
  exact { hl.takeHead.restart with
    disabled := fun hst => absurd hst hd
    header := ⟨by change (l.takeHeader b h).header.length ≤ 5; omega, fun hst => by
      change (l.takeHeader b h).header.length < 5
      have hne : (l.takeHeader b h).header.length ≠ 5 := fun hf => full hf hst
      omega⟩ }

section
variable {s u : State} (h : Changes s u)
include h

theorem Changes.lines (q : Quad Line) (ok : u.LinesOk → ∀ n, (q.get n).Ok (u.threshold n)) :
    Changes s { u with lines := q } := h.tail (.lines q ok)

/-- A line record written; what is written is as `Line.Ok` says where the old one was and the threshold is
in its range. -/
theorem Changes.setLine (n : LineNo) (l : Line)
    (ok : 8 ≤ u.threshold n → (u.line n).Ok (u.threshold n) → l.Ok (u.threshold n)) :
    Changes s (u.setLine n l) := by
  refine h.lines (u.lines.put n l) fun hu m => ?_
  by_cases hm : m = n
  · subst hm
    rw [Quad.get_put]
    exact ok (hu.thresholds m).1 (hu.lines m)
  · rw [Quad.get_put_ne _ _ hm]
    exact hu.lines m

theorem Changes.unbindLines (t : Tag) : Changes s (u.unbindLines t) := by
  refine h.lines (u.unbindLines t).lines fun hu n => ?_
  change ((u.unbindLines t).line n).Ok _
  obtain ⟨b, hb⟩ := (u.line n).unbind_eq t
  rw [State.line_unbindLines, hb]
  exact (hu.lines n).rebind b

theorem Changes.setTickDue (n : LineNo) (due : Bool) : Changes s (u.setTickDue n due) :=
  h.setLine n _ fun _ hl => { hl with }

end

/-- The line after an ending of a page, with what it was before in place of it. -/
theorem State.line_endEntry_ok {s : State} {k : Ending} {t : Tag} {n : LineNo} {h : Nat}
    (hl : ((s.endEntry k t).line n).Ok h) : (s.line n).Ok h := by
  obtain ⟨b, hb⟩ := s.line_endEntry k t n
  rw [hb] at hl
  exact hl.of_rebind

@[simp] theorem State.endEntry_threshold (s : State) (k : Ending) (t : Tag) (n : LineNo) :
    (s.endEntry k t).threshold n = s.threshold n := by
  simp [State.threshold, State.setting]

section
variable {s u : State} (h : Changes s u)
include h

theorem Changes.endEntry (k : Ending) (t : Tag) : Changes s (u.endEntry k t) := h.tail (.ending k t)

/-- R72 -/
theorem Changes.abortLine (n : LineNo) (c : AbortCause) : Changes s (u.abortLine n c) := by
  unfold State.abortLine
  dsimp only
  split
  · refine ((h.endEntry .aborted _).dropLookup _).setLine n _ fun hh hl => ?_
    exact Line.Ok.abort (State.line_endEntry_ok hl) hh c
  · exact (h.dropLookup _).setLine n _ fun hh hl => hl.abort hh c

/-! ### Entries, the wheel and the channels -/

theorem Changes.setEntry {t : Tag} {e : Entry} (e' : Entry) (he : u.entry t = some e)
    (same : e.SameCore e') : Changes s (u.setEntry t.slot e') := h.tail (.entry t e e' he same)

theorem Changes.leaveSlot (t : Tag) (e : Entry) : Changes s (u.leaveSlot t e) := by
  unfold State.leaveSlot
  split
  · next w _ _ => exact (h.tail (.wheel w _)).aside rfl rfl
  · exact h

/-- R105: scheduling rewrites the entry, whose core stays. -/
theorem Changes.schedule {t : Tag} {e e' : Entry} (st : PageState) (d : Nat) (he : u.entry t = some e)
    (same : e.SameCore e') : Changes s (u.schedule t e' st d) := by
  unfold State.schedule
  refine ((h.leaveSlot t e').tail (.wheel _ _)).setEntry (e := e) _ ?_ { same with }
  rw [← he]
  refine State.entry_congr ?_ t
  rw [State.setWheelList_slots]
  unfold State.leaveSlot
  split <;> rfl

theorem Changes.setChan (c : Chan) (v : Channel) (ok : (u.chan c).Ok → v.Ok) :
    Changes s (u.setChan c v) := h.tail (.channel c v ok)

theorem Changes.leaveBand (t : Tag) (c : Chan) : Changes s (u.leaveBand t c) := by
  refine h.setChan c _ fun hc => { hc with queue := ?_, closed := fun hd => ?_ }
  · have hu := (List.erase_sublist (a := t) (l := (u.chan c).urgent)).length_le
    have hn := (List.erase_sublist (a := t) (l := (u.chan c).normal)).length_le
    exact (Nat.add_le_add hu hn).trans hc.queue
  · simp [(hc.closed hd).1, (hc.closed hd).2]

theorem Changes.unlist (c : Chan) (t : Tag) : Changes s (u.unlist c t) :=
  h.setChan c _ fun hc => { hc with outstanding := (List.erase_sublist.length_le).trans hc.outstanding }

theorem Changes.countStray (c : Chan) : Changes s (u.countStray c) :=
  h.setChan c _ fun hc => { hc with stray := satAdd_le .. }

theorem Changes.completeEntry (t : Tag) : Changes s (u.completeEntry t) :=
  (h.unbindLines t).askLookup _

/-! ### Accounts -/

theorem Changes.setAcct (i : Nat) (a : Account) (may : u.AccountMay i a) : Changes s (u.setAcct i a) :=
  h.tail (.account i a may)

/-- R35: a commit is a write of the account that may raise OVERRUN. -/
theorem Changes.commit (i : Nat) (a : Account) (may : u.AccountMay i a.recompute) :
    Changes s (u.commit i a) := by
  unfold State.commit
  dsimp only
  split
  · exact (h.setAcct i _ may).raise _
  · exact h.setAcct i _ may

/-! ### The frame of the Command Port (R99, R161 to R165) -/

theorem Changes.dropFrame : Changes s u.dropFrame := by
  unfold State.dropFrame
  split
  · exact h
  · refine Changes.setFrame ?_ none
    split
    · exact h.dropLookup _
    · exact h.endEntry _ _
    · exact h
    · exact h

theorem Changes.abandon : Changes s u.abandon := by
  unfold State.abandon
  split
  · exact h.dropFrame.answer _ _
  · exact h

theorem Changes.openFrame (c : Cmd) (had : Bool) : Changes s (u.openFrame c had) := by
  have hl : Changes s (if operative c then u.setLatch emptyLatch else u) := by
    split
    · exact h.setLatch _ (fun _ _ ha => by cases ha) (fun _ _ hi => by cases hi)
    · exact h
  unfold State.openFrame
  dsimp only
  split
  · exact hl
  · exact hl.clearResult

theorem Changes.strobe {w cd : Bool} {b : Byte} {t : State} (ht : u.strobe w cd b = some t) :
    Changes s t := by
  unfold State.strobe at ht
  split at ht
  · split at ht
    · cases ht
      exact h.setPort _ fun hp => { hp with nibble := fun _ => rfl }
    · cases ht
  · cases ht
    exact h

end

theorem takeFrame_changes {s u : State} (h : Changes s u) {take : Frame → State → State} {f : Frame}
    (ht : Changes u (take f u)) : Changes s (u.takeFrame take f) := by
  unfold State.takeFrame
  split
  · exact h.answer _ _
  · exact h.trans ht

/-- R161, R162: the code of a command is a chain of changes where its meaning is one, busy clear. -/
theorem portCode_changes {c : Cmd} {take : Frame → State → State}
    (ht : ∀ f u, u.op = none → Changes u (take f u)) (s : State) : Changes s (portCode c take s) := by
  unfold portCode
  split
  · exact .refl s
  · next s0 h0 =>
    have h1 : Changes s s0.abandon := ((Changes.refl s).strobe h0).abandon
    dsimp only
    split
    · exact h1.answer _ _
    · next hb =>
      have hop : s0.abandon.op = none := by simpa [State.busy] using hb
      have h2 := h1.openFrame c s0.port.frame.isSome
      split
      · refine takeFrame_changes h2 (ht _ _ ?_)
        unfold State.openFrame
        dsimp only
        split <;> split <;> exact hop
      · exact h2.setFrame _

/-- R161, R162: the last byte of a command is a chain of changes where its meaning is one. -/
theorem portLast_changes {c : Cmd} {take : Frame → State → State}
    (ht : ∀ f u, Changes u (take f u)) (b : Byte) (s : State) : Changes s (portLast c take b s) := by
  unfold portLast
  split
  · next s0 f h0 _ =>
    have h1 : Changes s (s0.setFrame none) := ((Changes.refl s).strobe h0).setFrame none
    split
    · dsimp only
      split
      · exact h1.answer _ _
      · exact takeFrame_changes h1 (ht _ _)
    · exact .refl s
  · exact .refl s

theorem portRow_changes {c : Cmd} {take : Frame → State → State}
    (ht : ∀ f u, Changes u (take f u)) (w : PortWrite) (s : State) : Changes s (portRow c take w s) := by
  cases w with
  | code => exact portCode_changes (fun f u _ => ht f u) s
  | last b => exact portLast_changes ht b s

end Sys2Proof.Machine
end

/-! ## The Load Monitor: levels that stay enabled (R145 to R152) -/

section

namespace Sys2Proof.Machine

section
variable {s t : State} (hs : t.settings = s.settings)
include hs

theorem State.setting_congr (a : Nat) : t.setting a = s.setting a := by
  rw [State.setting, State.setting, hs]

theorem State.levelEnabled_congr (l : Nat) : t.levelEnabled l = s.levelEnabled l := by
  rw [State.levelEnabled, State.levelEnabled, State.setting_congr hs]

theorem State.nextLower_congr (l : Nat) : t.nextLower l = s.nextLower l := by
  simp only [State.nextLower, State.levelEnabled_congr hs]

theorem State.effectiveBoot_congr : t.effectiveBoot = s.effectiveBoot := by
  have boot : t.bootLevel = s.bootLevel := State.setting_congr hs _
  simp only [State.effectiveBoot, State.nextLower_congr hs, State.levelEnabled_congr hs, boot]

end

theorem State.MonitorOk.congr {s t : State} (h : s.MonitorOk) (hm : t.mons = s.mons)
    (ho : t.monitorOn = s.monitorOn) (hs : t.settings = s.settings) : t.MonitorOk := by
  have mon : ∀ c, t.mon c = s.mon c := fun c => by rw [State.mon, State.mon, hm]
  exact {
    boot := by rw [State.bootLevel, State.setting_congr hs]; exact h.boot
    enabled := fun c => by rw [State.levelEnabled_congr hs, mon]; exact h.enabled c
    level := fun c => by rw [mon]; exact h.level c
    activity := fun c => by rw [mon]; exact h.activity c
    counts := fun c => by rw [mon]; exact h.counts c
    off := fun hoff c => by rw [mon, State.effectiveBoot_congr hs]; exact h.off (ho ▸ hoff) c }

/-! ### The next levels -/

theorem State.nextHigher_enabled {s : State} {l k : Nat} (h : s.nextHigher l = some k) :
    s.levelEnabled k = true ∧ k ≤ 3 := by
  have hm := List.mem_of_find?_eq_some h
  have hp := List.find?_some h
  simp only [Bool.and_eq_true] at hp
  refine ⟨hp.2, ?_⟩
  fin_cases hm <;> decide

theorem State.nextLower_enabled (s : State) (l : Nat) :
    s.levelEnabled (s.nextLower l) = true ∧ s.nextLower l ≤ 3 := by
  unfold State.nextLower
  cases h : ([3, 2, 1] : List Nat).find? (fun k => decide (k < l) && s.levelEnabled k) with
  | none => simp [State.levelEnabled]
  | some k =>
    have hm := List.mem_of_find?_eq_some h
    have hp := List.find?_some h
    simp only [Bool.and_eq_true] at hp
    refine ⟨hp.2, ?_⟩
    fin_cases hm <;> decide

theorem State.effectiveBoot_enabled {s : State} (h : s.bootLevel ≤ 3) :
    s.levelEnabled s.effectiveBoot = true ∧ s.effectiveBoot ≤ 3 := by
  unfold State.effectiveBoot
  split
  · next he => exact ⟨he, h⟩
  · exact s.nextLower_enabled _

/-! ### Moves -/

/-- R147: a monitor record moved to level `l`. -/
def Monitor.movedTo (m : Monitor) (l : Nat) : Monitor :=
  if m.level = l then m else { m with level := l, up := 0, down := 0, residency := 0 }

@[simp] theorem Monitor.movedTo_level (m : Monitor) (l : Nat) : (m.movedTo l).level = l := by
  unfold Monitor.movedTo
  split
  · assumption
  · rfl

@[simp] theorem Monitor.movedTo_activity (m : Monitor) (l : Nat) : (m.movedTo l).activity = m.activity := by
  unfold Monitor.movedTo
  split <;> rfl

theorem Monitor.movedTo_counts {m : Monitor} (l : Nat)
    (h : m.up ≤ 15 ∧ m.down ≤ 15 ∧ m.residency ≤ 65535) :
    (m.movedTo l).up ≤ 15 ∧ (m.movedTo l).down ≤ 15 ∧ (m.movedTo l).residency ≤ 65535 := by
  unfold Monitor.movedTo
  split
  · exact h
  · exact ⟨Nat.zero_le _, Nat.zero_le _, Nat.zero_le _⟩

@[simp] theorem State.mon_moveLevel (s : State) (c : Chan) (l : Nat) :
    (s.moveLevel c l).mon c = (s.mon c).movedTo l := by
  unfold State.moveLevel Monitor.movedTo
  split
  · rfl
  · exact State.mon_setMon ..

@[simp] theorem State.mon_moveLevel_ne (s : State) {c k : Chan} (l : Nat) (h : k ≠ c) :
    (s.moveLevel c l).mon k = s.mon k := by
  unfold State.moveLevel
  split
  · rfl
  · exact State.mon_setMon_ne s _ h

theorem State.mon_toBootLevel (s : State) (c : Chan) :
    s.toBootLevel.mon c = (s.mon c).movedTo s.effectiveBoot := by
  unfold State.toBootLevel
  cases c with
  | A => rw [State.mon_moveLevel_ne _ _ (by decide), State.mon_moveLevel]
  | B => rw [State.mon_moveLevel, State.mon_moveLevel_ne _ _ (by decide)]

section
variable (s : State) (c : Chan) (l : Nat)

@[simp] theorem State.moveLevel_settings : (s.moveLevel c l).settings = s.settings := by
  rw [State.moveLevel_frame]
@[simp] theorem State.moveLevel_monitorOn : (s.moveLevel c l).monitorOn = s.monitorOn := by
  rw [State.moveLevel_frame]
@[simp] theorem State.moveLevel_setting (a : Nat) : (s.moveLevel c l).setting a = s.setting a := by
  rw [State.setting, State.moveLevel_settings, State.setting]
end

/-- R147, R148: a chain that changes the monitor's records and the notice causes only. -/
theorem Changes.monitored {s u t : State} (h : Changes s u)
    (frame : t = { u with mons := t.mons, monitorOn := t.monitorOn
                          port := { u.port with causes := t.port.causes } })
    (causes : u.port.causes.getLsbD 7 = false → t.port.causes.getLsbD 7 = false)
    (ok : u.MonitorOk → t.MonitorOk) : Changes s t := by
  have h1 := (h.tail (.monitor t.monitorOn t.mons fun hu =>
    (ok hu).congr rfl rfl (congrArg State.settings frame).symm)).setCauses t.port.causes causes
  rw [frame]
  exact h1

theorem State.MonitorOk.setMon {s : State} (h : s.MonitorOk) (c : Chan) {m : Monitor}
    (enabled : s.levelEnabled m.level = true) (level : m.level ≤ 3) (activity : m.activity ≤ 4095)
    (counts : m.up ≤ 15 ∧ m.down ≤ 15 ∧ m.residency ≤ 65535)
    (off : s.monitorOn = false → m.level = s.effectiveBoot) : (s.setMon c m).MonitorOk := by
  have mon : ∀ P : Monitor → Prop, P m → (∀ k, P (s.mon k)) → ∀ k, P ((s.setMon c m).mon k) := by
    intro P hm hP k
    by_cases hk : k = c
    · subst hk; rw [State.mon_setMon]; exact hm
    · rw [State.mon_setMon_ne s m hk]; exact hP k
  exact {
    boot := h.boot
    enabled := mon (fun v => s.levelEnabled v.level = true) enabled h.enabled
    level := mon (fun v => v.level ≤ 3) level h.level
    activity := mon (fun v => v.activity ≤ 4095) activity h.activity
    counts := mon (fun v => v.up ≤ 15 ∧ v.down ≤ 15 ∧ v.residency ≤ 65535) counts h.counts
    off := fun ho => mon (fun v => v.level = s.effectiveBoot) (off ho) (h.off ho) }

/-- R147: a move to an enabled level, the effective boot level while the monitor is disabled. -/
theorem State.MonitorOk.moveLevel {s : State} (h : s.MonitorOk) (c : Chan) {l : Nat}
    (enabled : s.levelEnabled l = true) (level : l ≤ 3)
    (off : s.monitorOn = false → l = s.effectiveBoot) : (s.moveLevel c l).MonitorOk := by
  unfold State.moveLevel
  split
  · exact h
  · exact (h.setMon c (m := { s.mon c with level := l, up := 0, down := 0, residency := 0 }) enabled level
      (h.activity c) ⟨Nat.zero_le _, Nat.zero_le _, Nat.zero_le _⟩ off).congr rfl rfl rfl

/-- R152: with both channels brought to the effective boot level the levels are in order, whatever they
were. -/
theorem State.toBootLevel_ok {s : State} (boot : s.bootLevel ≤ 3) (activity : ∀ c, (s.mon c).activity ≤ 4095)
    (counts : ∀ c, (s.mon c).up ≤ 15 ∧ (s.mon c).down ≤ 15 ∧ (s.mon c).residency ≤ 65535) :
    s.toBootLevel.MonitorOk := by
  have hs : s.toBootLevel.settings = s.settings := by simp [State.toBootLevel]
  obtain ⟨he, hl⟩ := State.effectiveBoot_enabled boot
  exact {
    boot := by rw [State.bootLevel, State.setting_congr hs]; exact boot
    enabled := fun c => by
      rw [State.levelEnabled_congr hs, State.mon_toBootLevel, Monitor.movedTo_level]; exact he
    level := fun c => by rw [State.mon_toBootLevel, Monitor.movedTo_level]; exact hl
    activity := fun c => by rw [State.mon_toBootLevel, Monitor.movedTo_activity]; exact activity c
    counts := fun c => by rw [State.mon_toBootLevel]; exact Monitor.movedTo_counts _ (counts c)
    off := fun _ c => by
      rw [State.mon_toBootLevel, Monitor.movedTo_level, State.effectiveBoot_congr hs] }

/-! ### The sample and the monitor's commands as chains of changes -/

theorem filtered_le {a w : Nat} (ha : a ≤ 4095) (hw : w ≤ 4095) : filtered a w ≤ 4095 := by
  unfold filtered
  omega

/-- R148: the record of a sample, its move apart, is within its ranges. -/
theorem State.MonitorOk.sampled {s : State} (h : s.MonitorOk) (c : Chan) {w : Nat} (hw : w ≤ 4095)
    (up down : Bool) (on : s.monitorOn = true) :
    (s.setMon c ((s.mon c).sampled (filtered (s.mon c).activity w) up down)).MonitorOk := by
  refine h.setMon c (h.enabled c) (h.level c) (filtered_le (h.activity c) hw) ⟨?_, ?_, satAdd_le ..⟩
    (fun ho => by rw [on] at ho; cases ho)
  · simp only [Monitor.sampled]; split
    · exact satAdd_le ..
    · exact Nat.zero_le _
  · simp only [Monitor.sampled]; split
    · exact satAdd_le ..
    · exact Nat.zero_le _

theorem State.sampleTarget_enabled {s : State} {m : Monitor} {up down : Bool} {l : Nat}
    (h : s.sampleTarget m up down = some l) : s.levelEnabled l = true ∧ l ≤ 3 := by
  unfold State.sampleTarget at h
  split at h
  · exact State.nextHigher_enabled h
  · split at h
    · cases h; exact s.nextLower_enabled _
    · cases h

theorem State.MonitorOk.sample {s : State} (h : s.MonitorOk) (c : Chan) : (s.sample c).MonitorOk := by
  cases ho : s.monitorOn with
  | false => rw [State.sample_of_off ho]; exact h
  | true =>
    have hw : weightOf (s.chan c).queueLength ≤ 4095 := Nat.min_le_left ..
    have hm := h.sampled c hw
      (s.upTest c (filtered (s.mon c).activity (weightOf (s.chan c).queueLength)))
      (s.downTest c (filtered (s.mon c).activity (weightOf (s.chan c).queueLength))) ho
    obtain ⟨hsome, hnone⟩ := State.sample_of_on (c := c) ho rfl rfl
    cases ht : s.sampleTarget _ _ _ with
    | none => rw [hnone ht]; exact hm
    | some l =>
      obtain ⟨he, hl⟩ := State.sampleTarget_enabled ht
      rw [hsome l ht]
      exact hm.moveLevel c he hl fun hoff => by rw [State.setMon_monitorOn, ho] at hoff; cases hoff

theorem State.moveLevel_causes (s : State) (c : Chan) (l : Nat)
    (h : s.port.causes.getLsbD 7 = false) : (s.moveLevel c l).port.causes.getLsbD 7 = false := by
  unfold State.moveLevel
  split
  · exact h
  · simpa [causeBit] using h

theorem State.sample_causes (s : State) (c : Chan) (h : s.port.causes.getLsbD 7 = false) :
    (s.sample c).port.causes.getLsbD 7 = false := by
  unfold State.sample
  dsimp only
  split
  · exact h
  · split
    · exact State.moveLevel_causes _ _ _ h
    · exact h

section
variable {s u : State} (h : Changes s u)
include h

theorem Changes.sample (c : Chan) : Changes s (u.sample c) := by
  refine h.monitored ?_ (u.sample_causes c) (fun hm => hm.sample c)
  have hon : (u.sample c).monitorOn = u.monitorOn := (congrArg State.monitorOn (u.sample_frame c) :)
  rw [hon]
  exact u.sample_frame c

theorem Changes.setSampleDue (c : Chan) (due : Bool) : Changes s (u.setSampleDue c due) :=
  h.monitored rfl id fun hm => hm.setMon c (m := { u.mon c with sampleDue := due }) (hm.enabled c)
    (hm.level c) (hm.activity c) (hm.counts c) (fun ho => hm.off ho c)

theorem Changes.takeLateSample (c : Chan) : Changes s (u.takeLateSample c) := by
  unfold State.takeLateSample
  split
  · exact (h.setSampleDue c false).sample c
  · exact h

/-- R147: a move to an enabled level. -/
theorem Changes.moveLevel (c : Chan) (l : Nat) (ok : u.MonitorOk → (u.moveLevel c l).MonitorOk) :
    Changes s (u.moveLevel c l) := by
  refine h.monitored ?_ (State.moveLevel_causes _ _ _) ok
  rw [State.moveLevel_monitorOn]
  rw [State.moveLevel_frame]

theorem Changes.restartMonitor (c : Chan) : Changes s (u.restartMonitor c) := by
  refine Changes.moveLevel (h.monitored (t := u.setMon c _) rfl id fun hm =>
    hm.setMon c (m := { u.mon c with activity := 0, up := 0, down := 0, residency := 0 }) (hm.enabled c)
      (hm.level c) (Nat.zero_le _) ⟨Nat.zero_le _, Nat.zero_le _, Nat.zero_le _⟩
      (fun ho => hm.off ho c)) c _ fun hm => ?_
  obtain ⟨he, hl⟩ := State.effectiveBoot_enabled hm.boot
  exact hm.moveLevel c he hl fun _ => rfl

end

theorem takeMonitorEnable_changes (f : Frame) (s : State) : Changes s (takeMonitorEnable f s) := by
  have on : Changes s { s with monitorOn := true } :=
    (Changes.refl s).monitored rfl id fun hm =>
      { hm with off := fun ho => by cases ho }
  exact ((on.restartMonitor .A).restartMonitor .B).answer _ _

theorem takeMonitorDisable_changes (f : Frame) (s : State) : Changes s (takeMonitorDisable f s) := by
  unfold takeMonitorDisable
  split
  · refine Changes.answer ((Changes.refl s).monitored ?_ (fun hc => ?_) fun hm => ?_) _ _
    · unfold State.toBootLevel
      rw [State.moveLevel_frame, State.moveLevel_frame]
    · exact State.moveLevel_causes _ _ _ (State.moveLevel_causes _ _ _ hc)
    · exact State.toBootLevel_ok hm.boot hm.activity hm.counts
  · exact (Changes.refl s).answer _ _

end Sys2Proof.Machine
end

/-! ## The rows as chains of changes -/

section

namespace Sys2Proof.Machine

/-! ### Arguments and the address map -/

theorem beValue_lt (bs : List Byte) : beValue bs < 256 ^ bs.length := by
  have fold : ∀ (bs : List Byte) (acc k : Nat), acc < 256 ^ k →
      bs.foldl (fun acc b => 256 * acc + b.toNat) acc < 256 ^ (k + bs.length) := by
    intro bs
    induction bs with
    | nil => exact fun _ _ h => h
    | cons b rest ih =>
      intro acc k h
      have hb := b.isLt
      have := ih (256 * acc + b.toNat) (k + 1) (by rw [pow_succ]; omega)
      rwa [Nat.add_right_comm] at this
  simpa [beValue] using fold bs 0 0 (by simp)

theorem Frame.num_lt (f : Frame) (i w : Nat) : f.num i w < 256 ^ w :=
  (beValue_lt _).trans_le (Nat.pow_le_pow_right (by decide) (by simp))

theorem fieldAt_end {a : Nat} (h : 0x284 ≤ a) : fieldAt a = none := by
  unfold fieldAt
  repeat rw [if_neg (by omega)]

/-- R172: an address is assigned below 284H only. -/
theorem lt_of_fieldAt {a : Nat} {f : Field} (h : fieldAt a = some f) : a < 0x284 := by
  by_contra ha
  rw [fieldAt_end (by omega)] at h
  cases h

theorem fieldAt_first_of_lt : ∀ a, a < 0x284 → ∀ f ∈ fieldAt a, fieldAt f.first = some f := by
  decide +kernel

/-- R172: a field is the field of its first byte. -/
theorem fieldAt_first {a : Nat} {f : Field} (h : fieldAt a = some f) : fieldAt f.first = some f :=
  fieldAt_first_of_lt a (lt_of_fieldAt h) f h

section
variable {s u : State} (h : Changes s u)
include h

theorem Changes.foldl {α : Type} {f : State → α → State} (hf : ∀ u x, Changes u (f u x)) (xs : List α) :
    Changes s (xs.foldl f u) := by
  induction xs generalizing u with
  | nil => exact h
  | cons x rest ih => exact ih (h.trans (hf u x))

/-! ### The directory (Chapter 1) -/

theorem Changes.beginOp (o : Operation) (idle : u.op = none) (may : u.MayBegin o) :
    Changes s (u.beginOp o) :=
  (h.tail (.begins o idle may)).aside rfl rfl

theorem Changes.updateRecord (a : Nat) (f : Subscriber → Subscriber)
    (same : ∀ r, (f r).addr = r.addr ∧ (f r).account = r.account ∧ (f r).live = r.live) :
    Changes s (u.updateRecord a f) := by
  refine h.tail (.records _ fun r => ?_)
  split
  · exact same r
  · exact ⟨rfl, rfl, rfl⟩

theorem Changes.hostWrite (a : Nat) (f : Subscriber → Subscriber)
    (same : ∀ r, (f r).addr = r.addr ∧ (f r).account = r.account ∧ (f r).live = r.live) :
    Changes s (u.hostWrite a f) := h.updateRecord a _ same

theorem Changes.answerRecord (r : Option Subscriber) : Changes s (u.answerRecord r) := by
  unfold State.answerRecord
  split <;> exact h.answer _ _

end

theorem State.busy_eq_false {s : State} : s.busy = false ↔ s.op = none := by simp [State.busy]

theorem takeAddSubscriber_changes (f : Frame) (s : State) : Changes s (takeAddSubscriber f s) := by
  have ans := fun c => (Changes.refl s).answer c []
  unfold takeAddSubscriber
  split
  · exact ans _
  · next hb =>
    have hidle : s.op = none := State.busy_eq_false.1 (by simpa using hb)
    split
    · next home _ _ =>
      split
      · exact ans _
      · next hdup =>
        split
        · exact ans _
        · next hfull =>
          split
          · exact ans _
          · next hunused =>
            exact (ans _).beginOp _ hidle
              ⟨Option.not_isSome_iff_eq_none.1 hdup, Nat.lt_of_not_le hfull, hunused, rfl⟩
    · exact ans _

theorem fieldWrite_same {sel v : Nat} {g : Subscriber → Subscriber} (h : fieldWrite sel v = some g)
    (r : Subscriber) : (g r).addr = r.addr ∧ (g r).account = r.account ∧ (g r).live = r.live := by
  unfold fieldWrite at h
  split at h
  case h_3 =>
    obtain ⟨c, -, rfl⟩ := Option.map_eq_some_iff.1 h
    exact ⟨rfl, rfl, rfl⟩
  case h_7 => cases h
  all_goals
    split at h <;> cases h
    exact ⟨rfl, rfl, rfl⟩

theorem takeWriteField_changes (f : Frame) (s : State) : Changes s (takeWriteField f s) := by
  have ans := fun c => (Changes.refl s).answer c []
  unfold takeWriteField
  split
  · exact ans _
  · split
    · exact ans _
    · exact ans _
    · next g r hg _ =>
      split
      · exact ans _
      · exact ((Changes.refl s).hostWrite f.sub g (fieldWrite_same hg)).answer _ _

theorem takeLinkAccount_changes (f : Frame) (s : State) : Changes s (takeLinkAccount f s) := by
  have ans := fun c => (Changes.refl s).answer c []
  unfold takeLinkAccount
  split
  · exact ans _
  · split
    · exact ans _
    · next r hr =>
      split
      · exact ans _
      · split
        · exact ans _
        · next hunused => exact ((Changes.refl s).tail (.link f.sub f.acct r hr hunused)).answer _ _

theorem takeSuspend_changes (f : Frame) (s : State) : Changes s (takeSuspend f s) := by
  have ans := fun c => (Changes.refl s).answer c []
  unfold takeSuspend
  split
  · exact ans _
  · split
    · exact ans _
    · split
      · exact ans _
      · refine Changes.answer ?_ _ _
        exact (Changes.refl s).hostWrite f.sub _ fun _ => ⟨rfl, rfl, rfl⟩

theorem takeResume_changes (f : Frame) (s : State) : Changes s (takeResume f s) := by
  have ans := fun c => (Changes.refl s).answer c []
  unfold takeResume
  split
  · exact ans _
  · split
    · exact ans _
    · refine Changes.answer ?_ _ _
      exact (Changes.refl s).hostWrite f.sub _ fun _ => ⟨rfl, rfl, rfl⟩

theorem takeRetire_changes (f : Frame) (s : State) : Changes s (takeRetire f s) := by
  have ans := fun c => (Changes.refl s).answer c []
  unfold takeRetire
  split
  · exact ans _
  · next hb =>
    have hidle : s.op = none := State.busy_eq_false.1 (by simpa using hb)
    split
    · exact ans _
    · next r hr =>
      split
      · exact ans _
      · have hw := ((Changes.refl s).hostWrite f.sub (fun q => { q with state := .retiring })
          fun _ => ⟨rfl, rfl, rfl⟩).answer .ok [byteOf r.live]
        dsimp only
        split
        · next hl =>
          refine hw.beginOp _ hidle ?_
          have hrec := State.record_updateRecord s f.sub f.sub
            (fun q => Subscriber.hostMarked { q with state := .retiring } s.markMode) (fun _ => rfl)
          rw [hr, Option.map_some, if_pos (State.record_eq_some hr).2] at hrec
          exact ⟨_, hrec, hl⟩
        · exact hw

theorem takeCursorSet_changes (f : Frame) (s : State) : Changes s (takeCursorSet f s) := by
  unfold takeCursorSet
  split
  · exact (Changes.refl s).answer _ _
  · split
    · exact (Changes.refl s).answer _ _
    · refine Changes.answer ?_ _ _
      exact (Changes.refl s).aside rfl rfl

theorem takeCursorRead_changes (f : Frame) (s : State) : Changes s (takeCursorRead f s) := by
  unfold takeCursorRead
  split
  · exact (Changes.refl s).answerRecord _
  · refine Changes.answerRecord ?_ _
    exact (Changes.refl s).aside rfl rfl

theorem takeCursorReadMarked_changes (f : Frame) (s : State) : Changes s (takeCursorReadMarked f s) := by
  unfold takeCursorReadMarked
  split
  · exact (Changes.refl s).answerRecord _
  · next r _ =>
    refine Changes.answerRecord ?_ _
    exact ((Changes.refl s).updateRecord r.addr (fun q => { q with mark := false })
      fun _ => ⟨rfl, rfl, rfl⟩).aside rfl rfl

theorem takeMarkMode_changes (f : Frame) (s : State) : Changes s (takeMarkMode f s) := by
  unfold takeMarkMode
  split
  · exact (Changes.refl s).answer _ _
  · refine Changes.answer ?_ _ _
    exact (Changes.refl s).aside rfl rfl

theorem takePartition_changes (f : Frame) (s : State) : Changes s (takePartition f s) := by
  have ans := fun c => (Changes.refl s).answer c []
  unfold takePartition
  split
  · exact ans _
  · split
    · exact ans _
    · next hc =>
      simp only [Bool.or_eq_true, decide_eq_true_eq, not_or, Bool.not_eq_true] at hc
      obtain ⟨⟨hlive, hroom⟩, hbusy⟩ := hc
      exact (ans _).beginOp _ (State.busy_eq_false.1 hbusy)
        ⟨Nat.le_of_not_lt hroom, State.anyLive_eq_false.1 hlive⟩

theorem additionComplete_changes {s t : State} (h : execAdditionComplete s = .next t) : Changes s t := by
  unfold execAdditionComplete at h
  split at h
  · next r ho => cases h; exact (Changes.refl s).tail (.adds r ho)
  · cases h; exact .refl s

theorem removalComplete_changes {s t : State} (h : execRemovalComplete s = .next t) : Changes s t := by
  unfold execRemovalComplete at h
  split at h
  · next a byEnding ho =>
    cases h
    refine ((Changes.refl s).tail (.removes a byEnding ho)).registers ?_ fun hp => ?_
    · rw [State.completeOp_eq, State.completeOp_eq]
      cases byEnding <;> rfl
    · rw [State.completeOp_eq] at hp ⊢
      cases byEnding
      · exact hp
      · exact { hp with causes := by simpa [causeBit] using hp.causes }
  · cases h; exact .refl s

theorem partitionComplete_changes {s t : State} (h : execPartitionComplete s = .next t) :
    Changes s t := by
  unfold execPartitionComplete at h
  split at h
  · next p ho =>
    cases h
    refine ((Changes.refl s).tail (.rebuilds p ho)).registers ?_ fun hp => ?_
    · rw [State.completeOp_eq, State.completeOp_eq, State.recomputePool_eq]
      rfl
    · rw [State.completeOp_eq] at hp ⊢
      rw [State.recomputePool_eq]
      refine { hp with causes := ?_ }
      have hc := hp.causes
      dsimp only at hc ⊢
      split <;> simpa using hc
  · cases h; exact .refl s

/-! ### Accounts (Chapter 2) -/

theorem le_signedValue {v : Nat} (h : v < 16777216) :
    -8388608 ≤ signedValue v ∧ signedValue v ≤ 8388607 := by
  unfold signedValue
  split <;> omega

theorem clampBalance_mem (v : Int) : -8388608 ≤ clampBalance v ∧ clampBalance v ≤ 8388607 := by
  simp only [clampBalance, Config.balanceMin, Config.balanceMax]
  omega

/-- R35: an account with its overrun flag recomputed is as `Account.Ok` says where its figures are in their
ranges. -/
theorem Account.recompute_ok {a : Account} (balance : -8388608 ≤ a.balance ∧ a.balance ≤ 8388607)
    (cl : a.cl ≤ 65535) (held : a.held ≤ 16777215) (refs : a.refs ≤ 4096)
    (pages : a.accepted ≤ 65535 ∧ a.delivered ≤ 65535 ∧ a.sentOnly ≤ 65535 ∧ a.expired ≤ 65535 ∧
      a.cancelled ≤ 65535 ∧ a.aborted ≤ 65535)
    (units : a.attempts ≤ 16777215 ∧ a.charged ≤ 16777215 ∧ a.refunded ≤ 16777215) : a.recompute.Ok where
  balanceMin := balance.1
  balanceMax := balance.2
  cl := cl
  held := held
  overrun := by simp [Account.recompute, overrunOf]
  refs := refs
  pages := pages
  units := units

theorem takeOpenAccount_changes (f : Frame) (s : State) : Changes s (takeOpenAccount f s) := by
  unfold takeOpenAccount
  split
  · refine Changes.answer ?_ _ _
    refine (Changes.refl s).commit _ _ ⟨fun ha => ?_, rfl, rfl, fun h => by cases h⟩
    exact Account.recompute_ok (le_signedValue (f.num_lt 0 3)) (Nat.le_of_lt_succ (f.num_lt 3 2)) ha.held
      ha.refs ha.pages ha.units
  · exact (Changes.refl s).answer _ _

theorem takeBar_changes (f : Frame) (s : State) : Changes s (takeBar f s) := by
  unfold takeBar
  split
  · exact (Changes.refl s).answer _ _
  · refine Changes.answer ?_ _ _
    exact (Changes.refl s).setAcct _ _ ⟨fun ha => { ha with }, rfl, rfl, fun h => by cases h⟩
  · exact (Changes.refl s).answer _ _

theorem takeUnbar_changes (f : Frame) (s : State) : Changes s (takeUnbar f s) := by
  unfold takeUnbar
  split
  · exact (Changes.refl s).answer _ _
  · exact (Changes.refl s).answer _ _
  · refine Changes.answer ?_ _ _
    exact (Changes.refl s).setAcct _ _ ⟨fun ha => { ha with }, rfl, rfl, fun h => by cases h⟩

theorem takeAdjustBalance_changes (f : Frame) (s : State) : Changes s (takeAdjustBalance f s) := by
  unfold takeAdjustBalance
  dsimp only
  split
  · exact (Changes.refl s).answer _ _
  · refine Changes.answer ?_ _ _
    refine (Changes.refl s).commit _ _ ⟨fun ha => ?_, rfl, rfl, .inl⟩
    exact Account.recompute_ok (clampBalance_mem _) ha.cl ha.held ha.refs ha.pages ha.units

theorem takeWriteLimit_changes (f : Frame) (s : State) : Changes s (takeWriteLimit f s) := by
  unfold takeWriteLimit
  split
  · exact (Changes.refl s).answer _ _
  · refine Changes.answer ?_ _ _
    refine (Changes.refl s).commit _ _ ⟨fun ha => ?_, rfl, rfl, .inl⟩
    exact Account.recompute_ok ⟨ha.balanceMin, ha.balanceMax⟩ (Nat.le_of_lt_succ (f.num_lt 0 2)) ha.held
      ha.refs ha.pages ha.units

theorem unusedAccount_ok : unusedAccount.Ok := by
  constructor <;> decide

theorem takeCloseAccount_changes (f : Frame) (s : State) (idle : s.op = none) :
    Changes s (takeCloseAccount f s) := by
  unfold takeCloseAccount
  dsimp only
  split
  · exact (Changes.refl s).answer _ _
  · split
    · exact (Changes.refl s).answer _ _
    · next hc =>
      simp only [Bool.or_eq_true, decide_eq_true_eq, not_or, Nat.not_lt, Nat.le_zero] at hc
      obtain ⟨hrefs, hheld⟩ := hc
      exact ((Changes.refl s).setAcct _ _
        ⟨fun _ => unusedAccount_ok, hrefs.symm, hheld.symm, fun _ => .inr ⟨hrefs, idle⟩⟩).answer _ _

theorem Account.Ok.settled {a : Account} (ha : a.Ok) : a.settled.Ok :=
  { ha with
    pages := by simp [Account.settled]
    units := by simp [Account.settled] }

theorem takeSettleBegin_changes (f : Frame) (s : State) : Changes s (takeSettleBegin f s) :=
  Changes.answer (u := { s with settleCursor := 0 })
    ((Changes.refl s).clock rfl fun hc => { hc with sweep := Nat.zero_le _ }) _ _

theorem takeSettleRead_changes (f : Frame) (s : State) : Changes s (takeSettleRead f s) := by
  unfold takeSettleRead
  split
  · next i hi =>
    have hlt : i < 1024 := by simpa using List.mem_of_find?_eq_some hi
    refine Changes.answer ?_ _ _
    exact ((Changes.refl s).setAcct i (s.acct i).settled ⟨Account.Ok.settled, rfl, rfl, .inl⟩).clock
      rfl fun hc => { hc with sweep := hlt }
  · refine Changes.answer ?_ _ _
    exact (Changes.refl s).clock rfl fun hc => { hc with sweep := Nat.le_refl _ }

/-! ### The Setting Tables -/

theorem writeTableByte_changes (s : State) (b : Byte) : Changes s (s.writeTableByte b) := by
  have moved : Changes s { s with tablePtr := nextPtr s.tablePtr } :=
    (Changes.refl s).clock rfl fun hc => { hc with pointer := Nat.mod_lt _ (by decide) }
  unfold State.writeTableByte
  dsimp only
  split
  · exact moved
  · next f hf =>
    split
    · exact moved.tail (.field f _ (fieldAt_first hf))
    · split
      · exact moved.setStaging _
      · split
        · exact moved
        · split
          · split
            · exact (moved.setStaging none).tail (.field f _ (fieldAt_first hf))
            · exact moved.setStaging _
          · exact moved.setStaging _

theorem takeTablePointer_changes (f : Frame) (s : State) : Changes s (takeTablePointer f s) := by
  unfold takeTablePointer
  split
  · next hp =>
    refine Changes.answer ?_ _ _
    exact ((Changes.refl s).clock (t := { s with tablePtr := f.num 0 2 }) rfl fun hc =>
      { hc with pointer := hp }).setStaging none
  · exact (Changes.refl s).answer _ _

theorem takeTableRead_changes (f : Frame) (s : State) : Changes s (takeTableRead f s) := by
  unfold takeTableRead
  split
  · refine Changes.answer ?_ _ _
    exact ((Changes.refl s).clock
      (t := { s with tablePtr := (s.tablePtr + f.arg 0) % Config.tableSpace }) rfl fun hc =>
        { hc with pointer := Nat.mod_lt _ (by decide) }).setStaging none
  · exact (Changes.refl s).answer _ _

theorem takeTableWrite_changes (f : Frame) (s : State) : Changes s (takeTableWrite f s) := by
  unfold takeTableWrite
  split
  · exact ((Changes.refl s).foldl writeTableByte_changes _).answer _ _
  · exact (Changes.refl s).answer _ _

/-! ### Intake Lines (Chapter 4) -/

theorem byteArrives_changes (s : State) (n : LineNo) (b : Byte) : Changes s (s.byteArrives n b) := by
  unfold State.byteArrives
  split
  · exact .refl s
  · next hd =>
    split
    · next room => exact (Changes.refl s).setLine n _ fun _ hl => hl.receive b hd room
    · refine Changes.abortLine ?_ n _
      exact (Changes.refl s).setLine n _ fun _ hl => { hl with }

theorem examineIdle_changes (s : State) (n : LineNo) : Changes s (s.examineIdle n) := by
  unfold State.examineIdle
  split
  · next b _ _ _ =>
    split
    · exact .refl s
    · exact (Changes.refl s).setLine n _ fun _ hl => hl.takeIdle b
  · exact .refl s

theorem takeHeaderByte_changes (s : State) (n : LineNo) : Changes s (s.takeHeaderByte n) := by
  unfold State.takeHeaderByte
  split
  · next b _ hst _ =>
    dsimp only
    rw [State.line_setLine]
    split
    · unfold State.handIn
      rw [State.line_setLine]
      dsimp only
      split
      · rw [State.setLine_setLine]
        exact (Changes.refl s).setLine n _ fun _ hl =>
          (((hl.takeHeader hst b (st := .skip) (by decide) (fun _ => by decide)).refuse _ _).remaining
            _).restart
      · rw [State.setLine_setLine]
        exact ((Changes.refl s).setLine n _ fun _ hl =>
          hl.takeHeader hst b (st := .lookup) (by decide) (fun _ => by decide)).askLookup _
    · next hlen =>
      have hsame : (s.line n).takeHeader b (s.threshold n) =
          { (s.line n).takeHeader b (s.threshold n) with state := .header } := by
        rw [← hst]; rfl
      rw [hsame]
      exact (Changes.refl s).setLine n _ fun _ hl =>
        hl.takeHeader hst b (by decide) (fun hf => absurd hf hlen)
  · exact .refl s

theorem Changes.writeText {s u t : State} (h : Changes s u) {bs : List Nat} {k : Nat} {b : Byte}
    (ht : u.writeText bs k b = some t) : Changes s t := by
  obtain ⟨block, -, -, rfl⟩ := State.writeText_eq_some.1 ht
  exact h.tail (.text _ _)

theorem Changes.writeTexts {s u t : State} (h : Changes s u) {bs : List Nat} {k : Nat} {cs : List Byte}
    (ht : u.writeTexts bs k cs = some t) : Changes s t := by
  induction cs generalizing u k with
  | nil => cases ht; exact h
  | cons c rest ih =>
    simp only [State.writeTexts] at ht
    split at ht
    · cases ht
    · next u1 h1 => exact ih (h.writeText h1) ht

theorem takeTextByte_changes {s t : State} {n : LineNo} (h : s.takeTextByte n = .next t) :
    Changes s t := by
  unfold State.takeTextByte at h
  split at h
  · split at h
    · cases h; exact .refl s
    · split at h
      · cases h
      · next s1 h1 =>
        cases h
        obtain ⟨block, -, -, rfl⟩ := State.writeText_eq_some.1 h1
        exact ((Changes.refl s).tail (.text _ _)).setLine n _ fun _ hl => Line.Ok.takeText hl _
  · cases h; exact .refl s

theorem takeCheckByte_changes (s : State) (n : LineNo) : Changes s (s.takeCheckByte n) := by
  unfold State.takeCheckByte
  split
  · next b _ t _ _ _ =>
    split
    · exact .refl s
    · dsimp only
      split
      · refine ((Changes.refl s).completeEntry t).setLine n _ fun _ hl => ?_
        have hl' : (s.line n).Ok (s.threshold n) := by
          change ((s.unbindLines t).line n).Ok (s.threshold n) at hl
          obtain ⟨c, hc⟩ := (s.line n).unbind_eq t
          rw [State.line_unbindLines, hc] at hl
          exact hl.of_rebind
        exact (hl'.takeCheck b).accept _ _
      · refine ((Changes.refl s).endEntry .aborted t).setLine n _ fun _ hl => ?_
        rw [State.endEntry_threshold] at hl ⊢
        exact ((State.line_endEntry_ok hl).takeCheck b).refuse _ _
  · exact .refl s

theorem takeSkipByte_changes (s : State) (n : LineNo) : Changes s (s.takeSkipByte n) := by
  unfold State.takeSkipByte
  split
  · exact (Changes.refl s).setLine n _ fun _ hl => hl.takeSkip
  · exact .refl s

section
variable {s u : State} (h : Changes s u)
include h

theorem Changes.tickLine (n : LineNo) : Changes s (u.tickLine n) := by
  rcases u.tickLine_cases n with ⟨-, hu⟩ | ⟨-, -, hu⟩ | ⟨-, -, hu⟩ <;> rw [hu]
  · exact h
  · exact h.abortLine n _
  · exact h.setLine n _ fun _ hl => hl.timed

theorem Changes.takeLateTick (n : LineNo) : Changes s (u.takeLateTick n) := by
  unfold State.takeLateTick
  split
  · exact (h.setTickDue n false).tickLine n
  · exact h

theorem Changes.finishSubmit : Changes s u.finishSubmit := by
  unfold State.finishSubmit
  split
  · exact h
  · split
    · split
      · exact ((h.setFrame none).completeEntry _).answer _ _
      · exact (h.setFrame none).setResult (List.cons_ne_nil _ _)
      · exact h
      · exact h
    · exact h

theorem Changes.refuseSource (src : Source) (hdr : Header) (reason : Reason) :
    Changes s (u.refuseSource src hdr reason) := by
  unfold State.refuseSource
  split
  · exact h.setLine _ _ fun _ hl => hl.refusedLine _ _ _
  · split
    · exact (h.setOutcome _ _).finishSubmit
    · exact h

theorem Changes.bindSource {t : State} {src : Source} {hdr : Header} {tag : Tag} {serial : Nat}
    {bs : List Nat} (ht : u.bindSource src hdr tag serial bs = .next t) : Changes s t := by
  unfold State.bindSource at ht
  split at ht
  · cases ht
    exact h.setLine _ _ fun _ hl => hl.admittedLine _ _
  · split at ht
    · cases ht; exact h
    · split at ht
      · cases ht
      · next s1 h1 =>
        cases ht
        exact ((h.setOutcome _ _).writeTexts h1).finishSubmit

end

theorem execReceiptFetch_changes {s t : State} {n : LineNo} {sending : Bool}
    (h : execReceiptFetch n sending s = .next t) : Changes s t := by
  cases h
  split
  · exact .refl s
  · split
    · exact (Changes.refl s).setRcv _ _
    · exact ((Changes.refl s).setLine n _ fun _ hl => hl.fetch).setRcv _ _

theorem admission_changes {s t : State} (h : execAdmission s = .next t) : Changes s t := by
  unfold execAdmission at h
  split at h
  · next src hdr ha =>
    obtain ⟨idle, quiet, -⟩ := State.answerable_eq_some.1 ha
    have hpop := (Changes.refl s).popLookup
    unfold State.answerRequest at h
    split at h
    · cases h; exact hpop.refuseSource _ _ _
    · next i r serial hv => exact (hpop.tail (.admission src hdr i r serial idle quiet hv)).bindSource h
  · cases h; exact .refl s

theorem onLine_changes {f : Frame} {s : State} {g : LineNo → State → State}
    (hg : ∀ n, Changes s (g n s)) : Changes s (onLine f s g) := by
  unfold onLine
  split
  · exact (Changes.refl s).answer _ _
  · exact hg _

theorem takeLineEnable_changes (f : Frame) (s : State) : Changes s (takeLineEnable f s) := by
  refine onLine_changes fun n => ?_
  dsimp only
  split
  · exact ((Changes.refl s).setLine n _ fun _ hl => (hl.inState (by decide) (by decide)).restart).answer _ _
  · exact (Changes.refl s).answer _ _

theorem takeLineDisable_changes (f : Frame) (s : State) : Changes s (takeLineDisable f s) := by
  refine onLine_changes fun n => ?_
  split
  · exact (Changes.refl s).answer _ _
  · exact ((Changes.refl s).abortLine n _).answer _ _

theorem takeLineFlush_changes (f : Frame) (s : State) : Changes s (takeLineFlush f s) := by
  refine onLine_changes fun n => ?_
  split
  · exact (Changes.refl s).answer _ _
  · exact ((Changes.refl s).abortLine n _).answer _ _

theorem takeLineStatus_changes (f : Frame) (s : State) : Changes s (takeLineStatus f s) :=
  onLine_changes fun _ => (Changes.refl s).answer _ _

theorem takeLineClear_changes (f : Frame) (s : State) : Changes s (takeLineClear f s) :=
  onLine_changes fun n => ((Changes.refl s).setLine n _ fun _ hl => hl.clearItems _).answer _ _

end Sys2Proof.Machine
end

/-! ## The rows as chains of changes: pages, clock, channels, answer-backs and the port -/

section

namespace Sys2Proof.Machine

/-! ### Pages (Chapter 5) -/

section
variable {s u : State} (h : Changes s u)
include h

theorem Changes.answerGone (t : Tag) : Changes s (u.answerGone t) := by
  unfold State.answerGone
  split <;> exact h.answer _ _

theorem Changes.handInPort (f : Frame) : Changes s (u.handInPort f) := by
  unfold State.handInPort
  dsimp only
  split
  · exact h.setOutcome _ _
  · exact (h.setOutcome _ _).askLookup _

theorem Changes.submitText {t : State} {f : Frame} {b : Byte} (ht : u.submitText f b = some t) :
    Changes s t := by
  unfold State.submitText at ht
  split at ht
  · split at ht
    · exact (h.setFrame _).writeText ht
    · cases ht; exact h.setFrame _
  all_goals cases ht; exact h.setFrame _

theorem Changes.submitByte {t : State} {f : Frame} {b : Byte} (ht : u.submitByte f b = .next t) :
    Changes s t := by
  unfold State.submitByte at ht
  split at ht
  · cases ht
    split
    · exact (h.setFrame none).answer _ _
    · exact h.setFrame _
  · split at ht
    · cases ht; exact h.setFrame _
    · split at ht
      · cases ht; exact (h.handInPort f).finishSubmit
      · split at ht
        · cases ht
        · next h1 => cases ht; exact (h.submitText h1).finishSubmit

end

theorem takePageStatus_changes (f : Frame) (s : State) : Changes s (takePageStatus f s) := by
  unfold takePageStatus
  split
  · exact (Changes.refl s).answer _ _
  · exact (Changes.refl s).answerGone _

theorem takeCancelPage_changes (f : Frame) (s : State) : Changes s (takeCancelPage f s) := by
  unfold takeCancelPage
  split
  · exact (Changes.refl s).answerGone _
  · next e he =>
    split
    · exact (Changes.refl s).answer _ _
    · exact ((Changes.refl s).endEntry _ _).answer _ _
    · exact ((Changes.refl s).endEntry _ _).answer _ _
    · exact ((Changes.refl s).endEntry _ _).answer _ _
    · refine Changes.answer ?_ _ _
      exact (Changes.refl s).setEntry _ he ⟨rfl, rfl, rfl, rfl, rfl⟩

theorem submitPage_changes {s t : State} {w : PortWrite} (h : execSubmitPage w s = .next t) :
    Changes s t := by
  unfold execSubmitPage at h
  split at h
  · cases h; exact portCode_changes (fun _ u _ => .refl u) s
  · unfold State.submitLast at h
    split at h
    · next h0 _ =>
      split at h
      · exact ((Changes.refl s).strobe h0).submitByte h
      · cases h; exact .refl s
    · cases h; exact .refl s

theorem argumentByte_changes {s t : State} {b : Byte} (h : execArgumentByte b s = .next t) :
    Changes s t := by
  unfold execArgumentByte at h
  split at h
  · cases h; exact .refl s
  · next h0 =>
    have hs := (Changes.refl s).strobe h0
    split at h
    · cases h; exact hs
    · split at h
      · cases h; exact .refl s
      · split at h
        · cases h; exact hs
        · split at h
          · exact hs.submitByte h
          · cases h; exact hs.setFrame _

theorem takePurgeTraffic_changes (f : Frame) (s : State) (idle : s.op = none) :
    Changes s (takePurgeTraffic f s) :=
  ((Changes.refl s).answer .ok []).beginOp _ idle trivial

/-- R15, R16: an ending begins no removal while an operation is in progress. -/
theorem State.endEntry_op_of_busy {s : State} (k : Ending) (t : Tag) (hb : s.op ≠ none) :
    (s.endEntry k t).op = s.op := by
  cases h : s.entry t with
  | none => rw [State.endEntry_of_none k h]
  | some e =>
    cases hr : s.record e.addr with
    | none => exact (State.endEntry_of_no_record k h hr).1
    | some r => rw [(State.endEntry_of_record k h hr).1, if_neg fun hc => hb hc.2]

theorem purgeIndex_changes (s : State) (i : Nat) : Changes s (s.purgeIndex i) := by
  unfold State.purgeIndex State.purgeEntry
  split
  · exact .refl s
  · dsimp only
    split
    · exact ((Changes.refl s).endEntry _ _).setLine _ _ fun _ hl => (State.line_endEntry_ok hl).purged
    · exact (Changes.refl s).endEntry _ _

theorem purgeIndex_op {s : State} (i : Nat) (hb : s.op ≠ none) : (s.purgeIndex i).op = s.op := by
  unfold State.purgeIndex State.purgeEntry
  split
  · rfl
  · dsimp only
    split
    · exact State.endEntry_op_of_busy _ _ hb
    · exact State.endEntry_op_of_busy _ _ hb

theorem purgeSlot_changes {s t : State} (h : execPurgeSlot s = .next t) : Changes s t := by
  unfold execPurgeSlot at h
  split at h
  · next i ho =>
    cases h
    split
    · exact (purgeIndex_changes s i).tail
        (.purges i (i + 1) ((purgeIndex_op i (by rw [ho]; exact Option.some_ne_none _)).trans ho))
    · exact .refl s
  · cases h; exact .refl s

theorem purgeComplete_changes {s t : State} (h : execPurgeComplete s = .next t) : Changes s t := by
  unfold execPurgeComplete at h
  split at h
  · next i ho =>
    cases h
    split
    · exact (Changes.refl s).tail (.purged i ho)
    · exact .refl s
  · cases h; exact .refl s

/-! ### The clock and the wheel (Chapter 6) -/

theorem advanceClock_changes (s : State) : Changes s s.advanceClock := by
  have hc : Changes s { s with time := satAdd Config.timeMax s.time 1, head := (s.head + 1) % 64 } :=
    (Changes.refl s).clock rfl fun hc =>
      { hc with time := satAdd_le .., head := Nat.mod_lt _ (by decide) }
  exact hc.aside rfl rfl

theorem tickReaches_changes (late : List TickPart) (s : State) (p : TickPart) :
    Changes s (s.tickReaches late p) := by
  unfold State.tickReaches
  split
  · split
    · exact (Changes.refl s).setTickDue _ _
    · exact (Changes.refl s).tickLine _
  · split
    · exact (Changes.refl s).setSampleDue _ _
    · exact (Changes.refl s).sample _

theorem countTick_changes (s : State) : Changes s s.countTick := by
  have late : Changes s s.takeLate :=
    ((((((Changes.refl s).takeLateTick 0).takeLateTick 1).takeLateTick 2).takeLateTick 3).takeLateSample
      .A).takeLateSample .B
  exact (late.trans (advanceClock_changes _)).foldl (tickReaches_changes _) _

theorem wheelVisit_changes (s : State) (w : Nat) : Changes s (s.wheelVisit w) := by
  have pass := (Changes.refl s).passVisit w
  unfold State.wheelVisit
  split
  · exact .refl s
  · split
    · exact pass
    · next e he =>
      split
      · exact .refl s
      · split
        · exact pass.setEntry e.fallRound he ⟨rfl, rfl, rfl, rfl, rfl⟩
        · split
          · exact pass
          · exact pass.askLookup _

theorem expireVisited_changes (s : State) (w : Nat) : Changes s (s.expireVisited w) := by
  unfold State.expireVisited
  split
  · exact .refl s
  · split
    · exact .refl s
    · split
      · exact ((Changes.refl s).passVisit w).endEntry _ _
      · exact .refl s

theorem endWindow_changes (s : State) (w : Nat) : Changes s (s.endWindow w) := by
  have pass := (Changes.refl s).passVisit w
  unfold State.endWindow
  split
  · exact .refl s
  · split
    · exact .refl s
    · split
      · split
        · exact pass.endEntry _ _
        · exact pass.askLookup _
      · exact .refl s

/-- R123: an opened channel with room takes one more tag in a band. -/
theorem Channel.Ok.enqueue {ch : Channel} (hc : ch.Ok) (ho : ch.state = .opened)
    (room : ch.queueLength < 64) (p : Priority) (t : Tag) : (ch.enqueue p t).Ok := by
  unfold Channel.queueLength at room
  cases p <;> exact { hc with
    queue := by simp only [Channel.enqueue, List.length_append, List.length_singleton]; omega
    closed := fun h => by rw [Channel.enqueue, ho] at h; cases h }

theorem placeLaunch_changes {s : State} {t : Tag} {e : Entry} (he : s.entry t = some e)
    (open_ : s.launchBlocked e.chan = false) (a : Attempt) : Changes s (s.placeLaunch t e a) := by
  simp only [State.launchBlocked, Bool.or_eq_false_iff, decide_eq_false_iff_not, not_not,
    Nat.not_le] at open_
  obtain ⟨ho, hroom⟩ := open_
  unfold State.placeLaunch
  have hslots : ((s.leaveSlot t e).unbindLines t).slots = s.slots := by
    unfold State.leaveSlot; split <;> rfl
  have hchan : ((s.leaveSlot t e).unbindLines t).chan e.chan = s.chan e.chan := by
    unfold State.leaveSlot; split <;> rfl
  have h1 := ((Changes.refl s).leaveSlot t e).unbindLines t
  have h2 := h1.setChan e.chan
    ((((s.leaveSlot t e).unbindLines t).chan e.chan).enqueue e.priority t) fun hc =>
      hc.enqueue (by rw [hchan]; exact ho) (by rw [hchan]; exact hroom) _ _
  refine h2.setEntry (e := e) _ ?_ ⟨rfl, rfl, rfl, rfl, rfl⟩
  rw [← he]
  exact State.entry_congr (by rw [State.setChan_slots, hslots]) t

theorem launch_changes (s : State) (t : Tag) : Changes s (s.launch t) := by
  unfold State.launch
  split
  · exact .refl s
  · next e he =>
    split
    · exact .refl s
    · split
      · exact (Changes.refl s).schedule _ _ he ⟨rfl, rfl, rfl, rfl, rfl⟩
      · next hb => exact placeLaunch_changes he (by simpa using hb) _

theorem execLaunch_changes {s t : State} (h : execLaunch s = .next t) : Changes s t := by
  unfold execLaunch at h
  split at h
  · cases h; exact ((Changes.refl s).popLookup).trans (launch_changes _ _)
  · cases h; exact .refl s

theorem takeSetClock_changes (f : Frame) (s : State) : Changes s (takeSetClock f s) := by
  refine Changes.answer ?_ _ _
  exact (Changes.refl s).clock rfl fun hc =>
    { hc with time := Nat.le_of_lt_succ (f.num_lt 0 4) }

/-! ### Channels (Chapter 7) -/

theorem markOutstanding_changes (s : State) (c : Chan) : Changes s (s.markOutstanding c) := by
  refine (Changes.refl s).foldl (fun u t => ?_) _
  unfold State.markExpired
  split
  · next e he =>
    split
    · exact (Changes.refl u).setEntry _ he ⟨rfl, rfl, rfl, rfl, rfl⟩
    · exact .refl u
  · exact .refl u

theorem expireHeads_changes (s : State) (c : Chan) : Changes s (s.expireHeads c) :=
  (Changes.refl s).foldl (fun u t => ((Changes.refl u).endEntry .expired t).leaveBand t c) _

@[simp] theorem State.outstanding_endEntry (s : State) (k : Ending) (t : Tag) (c : Chan) :
    ((s.endEntry k t).chan c).outstanding = (s.chan c).outstanding := by
  obtain ⟨us, ns, -, -, h⟩ := s.chan_endEntry k t c
  rw [h]

theorem State.outstanding_leaveBand (s : State) (t : Tag) (k c : Chan) :
    ((s.leaveBand t k).chan c).outstanding = (s.chan c).outstanding := by
  by_cases hc : c = k
  · subst hc; simp [State.leaveBand]
  · simp [State.leaveBand, hc]

theorem outstanding_expireHeads (s : State) (c k : Chan) :
    ((s.expireHeads c).chan k).outstanding = (s.chan k).outstanding := by
  have fold : ∀ (ts : List Tag) (u : State),
      ((ts.foldl (State.expireQueued c) u).chan k).outstanding = (u.chan k).outstanding := by
    intro ts
    induction ts with
    | nil => exact fun _ => rfl
    | cons t rest ih =>
      intro u
      rw [List.foldl_cons, ih, State.expireQueued, State.outstanding_leaveBand, State.outstanding_endEntry]
  exact fold _ s

theorem answerEmpty_changes {s : State} {c : Chan} (empty : (s.chan c).queue = []) :
    Changes s (s.answerEmpty c) := by
  obtain ⟨hu, hn⟩ := List.append_eq_nil_iff.1 empty
  unfold State.answerEmpty
  split
  · exact (((Changes.refl s).setChan c { s.chan c with state := .closed, drained := true } fun hc =>
      { hc with closed := fun _ => ⟨hu, hn⟩, drained := fun _ => rfl }).raise _).setEnc _ _
  · exact (Changes.refl s).setEnc _ _
  · exact (Changes.refl s).setEnc _ _

theorem putOnAir_changes {s : State} {c : Chan} {t : Tag} {e : Entry} (he : s.entry t = some e)
    (room : (s.chan c).outstanding.length < 4) : Changes s (s.putOnAir c t e) := by
  have h1 := (Changes.refl s).leaveBand t c
  have h2 := h1.setChan c { (s.leaveBand t c).chan c with
      outstanding := ((s.leaveBand t c).chan c).outstanding ++ [t] } fun hc => { hc with
        outstanding := by
          rw [State.outstanding_leaveBand, List.length_append, List.length_singleton]; omega }
  exact h2.setEntry _ (e := e) he ⟨rfl, rfl, rfl, rfl, rfl⟩

theorem pullQueue_changes {s t : State} {c : Chan} (room : (s.chan c).outstanding.length < 4)
    (h : s.pullQueue c = .next t) : Changes s t := by
  have heads := expireHeads_changes s c
  unfold State.pullQueue at h
  dsimp only at h
  split at h
  · next hq => cases h; exact heads.trans (answerEmpty_changes hq)
  · split at h
    · next e he =>
      unfold State.servePage at h
      split at h
      · cases h
      · cases h
        refine (heads.trans (putOnAir_changes he ?_)).setEnc _ _
        rw [outstanding_expireHeads]
        exact room
    · cases h; exact heads

theorem execPull_changes {s t : State} {c : Chan} {sending : Bool} (h : execPull c sending s = .next t) :
    Changes s t := by
  unfold execPull at h
  split at h
  · cases h; exact .refl s
  · split at h
    · cases h; exact (Changes.refl s).setEnc _ _
    · have marked := markOutstanding_changes s c
      unfold State.answerPull at h
      split at h
      · cases h; exact marked.setEnc _ _
      · split at h
        · cases h; exact marked.setEnc _ _
        · next hroom => exact marked.trans (pullQueue_changes (Nat.lt_of_not_le hroom) h)

/-- R128, R129: a report reaches a live entry of its tag. -/
theorem State.reported_entry {s : State} {c : Chan} {t : Tag} {e : Entry}
    (h : s.reported c t = some e) : s.entry t = some e := by
  unfold State.reported at h
  split at h
  · split at h
    · next he =>
      split at h
      · cases h; exact he
      · cases h
    · cases h
  · cases h

section
variable {s u : State} (h : Changes s u)
include h

/-- R36: a SENT reaches its account with held and the references as they were. -/
theorem Changes.sentEvent (i k sc : Nat) : Changes s (u.sentEvent i k sc) := by
  unfold State.sentEvent
  split
  · refine h.commit i _ ⟨fun ha => ?_, rfl, rfl, .inl⟩
    exact Account.recompute_ok (clampBalance_mem _) ha.cl ha.held ha.refs ha.pages
      ⟨satAdd_le .., satAdd_le .., ha.units.2.2⟩
  · exact h.setAcct i _ ⟨fun ha => { ha with units := ⟨satAdd_le .., ha.units.2⟩ }, rfl, rfl, .inl⟩

theorem Changes.afterSent {t : Tag} {e : Entry} (he : u.entry t = some e) :
    Changes s (u.afterSent t e) := by
  unfold State.afterSent
  split
  · exact h.endEntry _ _
  · split
    · exact h.endEntry _ _
    · split
      · exact h.endEntry _ _
      · exact h.schedule _ _ he ⟨rfl, rfl, rfl, rfl, rfl⟩

theorem Changes.failedLive {t : Tag} {e : Entry} (he : u.entry t = some e) :
    Changes s (u.failedLive t e) := by
  unfold State.failedLive
  split
  · exact h.endEntry _ _
  · split
    · exact h.endEntry _ _
    · exact h.schedule _ _ he ⟨rfl, rfl, rfl, rfl, rfl⟩

theorem Changes.sentLive {t : Tag} {e : Entry} (he : u.entry t = some e) : Changes s (u.sentLive t e) := by
  unfold State.sentLive
  dsimp only
  refine ((h.setEntry { e with attempts := e.attempts + 1 } he ⟨rfl, rfl, rfl, rfl, rfl⟩).sentEvent _ _
    _).afterSent ?_
  rw [State.entry_congr (s := u.setEntry t.slot { e with attempts := e.attempts + 1 }) ?_ t]
  · exact State.entry_setEntry he _
  · unfold State.sentEvent
    split
    · rw [State.commit_eq]; rfl
    · rfl

end

theorem reportSent_changes (s : State) (c : Chan) (t : Tag) : Changes s (s.reportSent c t) := by
  unfold State.reportSent
  split
  · next e he =>
    have live : s.entry t = some e := State.reported_entry he
    exact ((Changes.refl s).unlist c t).sentLive live
  · exact ((Changes.refl s).unlist c t).countStray c

theorem reportFailed_changes (s : State) (c : Chan) (t : Tag) : Changes s (s.reportFailed c t) := by
  have fault := ((Changes.refl s).raise .airFault).unlist c t
  unfold State.reportFailed
  split
  · next e he =>
    have live : s.entry t = some e := State.reported_entry he
    exact fault.failedLive live
  · exact fault.countStray c

theorem onChan_changes {f : Frame} {s : State} {g : Chan → State → State}
    (hg : ∀ c, Changes s (g c s)) : Changes s (onChan f s g) := by
  unfold onChan
  split
  · exact (Changes.refl s).answer _ _
  · exact hg _

/-- R132: a channel brought to a state other than CLOSED, or closed with its bands empty. -/
theorem Changes.setChanState {s u : State} (h : Changes s u) (c : Chan) (st : ChanState)
    (hst : st = .closed → (u.chan c).urgent = [] ∧ (u.chan c).normal = []) :
    Changes s (u.setChanState c st) :=
  h.setChan c _ fun hc => { hc with closed := hst, drained := fun hd => by cases hd }

theorem takeChannelOpen_changes (f : Frame) (s : State) : Changes s (takeChannelOpen f s) :=
  onChan_changes fun c => ((Changes.refl s).setChanState c _ fun h => by cases h).answer _ _

theorem takeChannelDrain_changes (f : Frame) (s : State) : Changes s (takeChannelDrain f s) := by
  refine onChan_changes fun c => ?_
  split
  · exact (Changes.refl s).answer _ _
  · exact ((Changes.refl s).setChanState c _ fun h => by cases h).answer _ _

theorem returnQueued_changes (s : State) (t : Tag) : Changes s (s.returnQueued t) := by
  unfold State.returnQueued
  split
  · next he => exact (Changes.refl s).schedule _ _ he ⟨rfl, rfl, rfl, rfl, rfl⟩
  · exact .refl s

theorem returnQueued_chans (s : State) (t : Tag) : (s.returnQueued t).chans = s.chans := by
  unfold State.returnQueued
  split
  · rw [State.schedule_frame]
  · rfl

/-- R132: the bands of a channel whose queue has been returned are empty. -/
theorem returnQueue_chan (s : State) (c : Chan) :
    (s.returnQueue c).chan c = { s.chan c with urgent := [], normal := [] } := by
  have fold : ∀ (ts : List Tag) (u : State), (ts.foldl State.returnQueued u).chans = u.chans := by
    intro ts
    induction ts with
    | nil => exact fun _ => rfl
    | cons t rest ih => exact fun u => (ih _).trans (returnQueued_chans u t)
  rw [State.returnQueue, State.chan, fold]
  exact State.chan_setChan ..

theorem takeChannelClose_changes (f : Frame) (s : State) : Changes s (takeChannelClose f s) := by
  refine onChan_changes fun c => ?_
  have emptied := (Changes.refl s).setChan c { s.chan c with urgent := [], normal := [] } fun hc =>
    { hc with queue := Nat.zero_le _, closed := fun _ => ⟨rfl, rfl⟩ }
  refine (Changes.setChanState (emptied.foldl returnQueued_changes _) c _ fun _ => ?_).answer _ _
  have hb := returnQueue_chan s c
  unfold State.returnQueue at hb
  rw [hb]
  exact ⟨rfl, rfl⟩

theorem takeChannelClear_changes (f : Frame) (s : State) : Changes s (takeChannelClear f s) :=
  onChan_changes fun c => ((Changes.refl s).setChan c { s.chan c with stray := 0 }
    fun hc => { hc with stray := Nat.zero_le _ }).answer _ _

/-! ### Answer-backs (Chapter 8) -/

theorem execAnswerBackFrame_changes {s t : State} {n : LineNo} {marked : Bool} {b : Byte}
    (h : execAnswerBackFrame n marked b s = .next t) : Changes s t := by
  cases h
  split
  · exact (Changes.refl s).setAbSlot _ _
  · exact .refl s
  · exact .refl s
  · exact (Changes.refl s).setAbSlot _ _

theorem execMarkedByteRestart_changes {s t : State} {n : LineNo} {b : Byte}
    (h : execMarkedByteRestart n b s = .next t) : Changes s t := by
  cases h
  split
  · exact .refl s
  · exact (Changes.refl s).setAbSlot _ _

theorem Changes.beginService {s u : State} (h : Changes s u) : Changes s u.beginService := by
  rcases u.beginService_cases with ⟨-, hu⟩ | ⟨n, -, hu⟩ <;> rw [hu]
  · exact h
  · refine Changes.askLookup ?_ _
    exact h.aside rfl rfl

theorem roamFor_changes (s : State) (n : LineNo) (f : AbFrame) : Changes s (s.roamFor n f) := by
  have roam : ∀ r, Changes s (s.roamingUpdate n r) := by
    intro r
    have hu := (Changes.refl s).updateRecord r.addr
      (fun q => q.roam (s.receiverZone n) s.time s.markMode) fun _ => ⟨rfl, rfl, rfl⟩
    unfold State.roamingUpdate
    dsimp only
    split
    · exact hu
    · exact hu.setAbSlot _ _
  unfold State.roamFor
  split
  · exact roam _
  · exact roam _
  · exact roam _
  · exact .refl s

/-- R140: a matched entry is the live entry of its tag. -/
theorem State.matchEntry_entry {s : State} {addr serial : Nat} {t : Tag} {e : Entry}
    (h : s.matchEntry addr serial = some (t, e)) : s.entry t = some e := by
  obtain ⟨i, -, hi⟩ := List.exists_of_findSome?_eq_some h
  split at hi
  · next he =>
    split at hi
    · cases hi
      exact State.entry_eq_some.2 ⟨rfl, he⟩
    · cases hi
  · cases hi

theorem declineEntry_changes {s : State} {t : Tag} {e : Entry} (he : s.entry t = some e) :
    Changes s (s.declineEntry t e) := by
  unfold State.declineEntry
  split
  · split
    · exact (Changes.refl s).endEntry _ _
    · exact ((Changes.refl s).dropLookup _).schedule _ _ (e := e) he ⟨rfl, rfl, rfl, rfl, rfl⟩
  all_goals exact .refl s

theorem disposeFrame_changes (s : State) (n : LineNo) (f : AbFrame) (found : Bool) :
    Changes s (s.disposeFrame n f found) := by
  have stray : Changes s (s.countAbStray n) := (Changes.refl s).setAbSlot _ _
  unfold State.disposeFrame
  split
  · exact (Changes.refl s).endEntry _ _
  · next hm => exact declineEntry_changes (State.matchEntry_entry hm)
  · exact stray
  · exact stray
  · split
    · exact .refl s
    · exact stray
  · exact stray

theorem serveSlot_changes (s : State) (n : LineNo) : Changes s (s.serveSlot n) := by
  unfold State.serveSlot
  split
  · exact .refl s
  · exact ((roamFor_changes s n _).trans (disposeFrame_changes _ n _ _)).setAbSlot _ _

theorem execServiceAnswer_changes {s t : State} (h : execServiceAnswer s = .next t) : Changes s t := by
  unfold execServiceAnswer at h
  split at h
  · cases h; exact (((Changes.refl s).popLookup).trans (serveSlot_changes _ _)).beginService
  · cases h; exact .refl s

theorem onSlot_changes {f : Frame} {s : State} {g : LineNo → State → State}
    (hg : ∀ n, Changes s (g n s)) : Changes s (onSlot f s g) := by
  unfold onSlot
  split
  · exact (Changes.refl s).answer _ _
  · exact hg _

/-! ### The port's own steps (Chapter 11) and the resets -/

theorem Port.Ok.advance {p : Port} (hp : p.Ok) : p.advance.Ok := by
  unfold Port.advance
  split
  · next hlt =>
    refine { hp with index := hlt, ready := ?_ }
    simp only [Bool.and_eq_true, decide_eq_true_eq]
    exact ⟨fun h => h.2, fun h => ⟨hp.ready.2 hlt, h⟩⟩
  · exact hp

theorem Changes.completeRead {s u : State} (h : Changes s u) (cd : Bool) :
    Changes s (u.completeRead cd) := by
  unfold State.completeRead
  split
  · exact h.setPort _ Port.Ok.advance
  · exact h

theorem execResultRead_changes {s t : State} {cd : Bool} (h : execResultRead cd s = .next t) :
    Changes s t := by
  cases h
  split
  · split
    · refine Changes.completeRead (Changes.drive ?_ _) cd
      exact (Changes.refl s).setPort _ fun hp => { hp with nibble := fun _ => rfl }
    · exact .refl s
  · exact ((Changes.refl s).drive _).completeRead cd

theorem execPendingNibble_changes {s t : State} {write cd : Bool} {v : BitVec 4}
    (h : execPendingNibble write cd v s = .next t) : Changes s t := by
  have pend : ∀ x, s.port.fourBit = true → Changes s (s.setPort { s.port with nibble := some x }) :=
    fun x hf => (Changes.refl s).setPort _ fun hp =>
      { hp with nibble := fun h => by rw [hf] at h; cases h }
  cases h
  split
  · next hf =>
    simp only [Bool.and_eq_true] at hf
    split
    · exact pend _ hf.1
    · exact (pend _ hf.1).drive _
  · exact .refl s

theorem execUnknownCommandCode_changes {s t : State} {b : Byte}
    (h : execUnknownCommandCode b s = .next t) : Changes s t := by
  cases h
  split
  · exact .refl s
  · split
    · exact .refl s
    · next h0 =>
      have ab := ((Changes.refl s).strobe h0).abandon
      split <;> exact ab.answer _ _

theorem takeSelSubscriber_changes (f : Frame) (s : State) : Changes s (takeSelSubscriber f s) := by
  unfold takeSelSubscriber
  split
  · exact (Changes.refl s).answer _ _
  · next hr =>
    split
    · exact (Changes.refl s).answer _ _
    · refine Changes.answer ?_ _ _
      refine (Changes.refl s).setLatch _ (fun _ a ha => ?_) (fun hp => hp.acct)
      cases ha
      exact Nat.le_of_not_lt hr

theorem takeSelAccount_changes (f : Frame) (s : State) : Changes s (takeSelAccount f s) := by
  unfold takeSelAccount
  split
  · exact (Changes.refl s).answer _ _
  · next hr =>
    split
    · exact (Changes.refl s).answer _ _
    · refine Changes.answer ?_ _ _
      refine (Changes.refl s).setLatch _ (fun hp => hp.sub) (fun _ i hi => ?_)
      cases hi
      exact Nat.le_of_lt_succ (Nat.lt_of_not_le hr)

theorem takeSelPage_changes (f : Frame) (s : State) : Changes s (takeSelPage f s) := by
  unfold takeSelPage
  split
  · exact (Changes.refl s).answer _ _
  · refine Changes.answer ?_ _ _
    exact (Changes.refl s).setLatch _ (fun hp => hp.sub) (fun hp => hp.acct)

theorem takeSelClear_changes (f : Frame) (s : State) : Changes s (takeSelClear f s) :=
  ((Changes.refl s).setLatch _ (fun _ _ h => by cases h) (fun _ _ h => by cases h)).answer _ _

theorem takePortWidth_changes (f : Frame) (s : State) : Changes s (takePortWidth f s) := by
  unfold takePortWidth
  split
  · exact ((Changes.refl s).setWidth _).answer _ _
  · split
    · exact ((Changes.refl s).setWidth _).answer _ _
    · exact (Changes.refl s).answer _ _

theorem takeNoticeEnable_changes (f : Frame) (s : State) : Changes s (takeNoticeEnable f s) := by
  refine Changes.answer ?_ _ _
  exact (Changes.refl s).setPort _ fun hp => { hp with enables := by simp }

theorem takeNoticeClear_changes (f : Frame) (s : State) : Changes s (takeNoticeClear f s) := by
  refine Changes.answer ?_ _ _
  refine (Changes.refl s).setCauses _ fun hc => ?_
  rw [BitVec.getLsbD_and, hc, Bool.false_and]

theorem portReset_changes (s : State) : Changes s s.portReset := by
  have h := ((((Changes.refl s).dropFrame.clearResult).setLatch emptyLatch
    (fun _ _ h => by cases h) (fun _ _ h => by cases h)).setWidth false).setStaging none
  exact h

theorem powerOn_changes {s t : State} (h : execPowerOn s = .next t) : Changes s t := by
  cases h
  refine (Changes.refl s).restarts (some .autoclear) (.inr rfl) rfl fun _ => ?_
  constructor <;> simp [State.reset, freshPort, emptyLatch]

theorem autoclearComplete_changes {s t : State} (h : execAutoclearComplete s = .next t) :
    Changes s t := by
  unfold execAutoclearComplete at h
  split at h
  · cases h
    exact (Changes.refl s).restarts none (.inl rfl) rfl fun hp =>
      { hp with causes := by simp, enables := by simp }
  · cases h; exact .refl s

/-! ### Every step -/

theorem portCode_next {c : Cmd} {take : Frame → State → State} {s t : State}
    (ht : ∀ f u, u.op = none → Changes u (take f u))
    (h : (Host.Outcome.next (portCode c take s) : Res) = .next t) : Changes s t := by
  cases h; exact portCode_changes ht s

theorem portRow_next {c : Cmd} {take : Frame → State → State} {w : PortWrite} {s t : State}
    (ht : ∀ f u, Changes u (take f u)) (h : (Host.Outcome.next (portRow c take w s) : Res) = .next t) :
    Changes s t := by
  cases h; exact portRow_changes ht w s

/-- A meaning that answers leaves its state by a chain of changes. -/
theorem exec_changes {i : Instr} {s t : State} (h : exec i s = .next t) : Changes s t := by
  cases i with
  | powerOn => exact powerOn_changes h
  | autoclearComplete => exact autoclearComplete_changes h
  | portReset => cases h; exact portReset_changes s
  | tick =>
    cases h
    split
    · exact .refl s
    · exact countTick_changes s
  | levelMove c => cases h; exact (Changes.refl s).takeLateSample c
  | wheelVisit w => cases h; exact wheelVisit_changes s w
  | deadlineExpired w => cases h; exact expireVisited_changes s w
  | windowEnd w => cases h; exact endWindow_changes s w
  | launch => exact execLaunch_changes h
  | intakeByte n b =>
    cases h
    split
    · exact .refl s
    · exact byteArrives_changes s n b
  | idleByte n => cases h; exact examineIdle_changes s n
  | headerByte n => cases h; exact takeHeaderByte_changes s n
  | admission => exact admission_changes h
  | textByte n => exact takeTextByte_changes h
  | checkByte n => cases h; exact takeCheckByte_changes s n
  | skipByte n => cases h; exact takeSkipByte_changes s n
  | idleTimeout n => cases h; exact (Changes.refl s).takeLateTick n
  | receiptFetch n sending => exact execReceiptFetch_changes h
  | additionComplete => exact additionComplete_changes h
  | removalComplete => exact removalComplete_changes h
  | partitionComplete => exact partitionComplete_changes h
  | purgeSlot => exact purgeSlot_changes h
  | purgeComplete => exact purgeComplete_changes h
  | pull c sending => exact execPull_changes h
  | sent c slot gen =>
    cases h
    split
    · exact .refl s
    · exact reportSent_changes s c _
  | failed c slot gen =>
    cases h
    split
    · exact .refl s
    · exact reportFailed_changes s c _
  | answerBackFrame n marked b => exact execAnswerBackFrame_changes h
  | answerBackService =>
    cases h
    split
    · exact .refl s
    · exact (Changes.refl s).beginService
  | serviceAnswer => exact execServiceAnswer_changes h
  | resultRead cd => exact execResultRead_changes h
  | argumentByte b => exact argumentByte_changes h
  | unknownCommandCode b => exact execUnknownCommandCode_changes h
  | selSubscriber w => exact portRow_next takeSelSubscriber_changes h
  | selAccount w => exact portRow_next takeSelAccount_changes h
  | selPage w => exact portRow_next takeSelPage_changes h
  | selClear => exact portCode_next (fun f u _ => takeSelClear_changes f u) h
  | portWidth w => exact portRow_next takePortWidth_changes h
  | noticeEnable w => exact portRow_next takeNoticeEnable_changes h
  | noticeClear w => exact portRow_next takeNoticeClear_changes h
  | noticeRead =>
    exact portCode_next (take := takeNoticeRead) (fun _ u _ => (Changes.refl u).answer _ _) h
  | addSubscriber w => exact portRow_next takeAddSubscriber_changes h
  | readSubscriber => exact portCode_next (fun _ u _ => (Changes.refl u).answerRecord _) h
  | writeField w => exact portRow_next takeWriteField_changes h
  | linkAccount => exact portCode_next (fun f u _ => takeLinkAccount_changes f u) h
  | suspend => exact portCode_next (fun f u _ => takeSuspend_changes f u) h
  | resume => exact portCode_next (fun f u _ => takeResume_changes f u) h
  | retire => exact portCode_next (fun f u _ => takeRetire_changes f u) h
  | cursorSet w => exact portRow_next takeCursorSet_changes h
  | cursorRead => exact portCode_next (fun f u _ => takeCursorRead_changes f u) h
  | cursorReadMarked => exact portCode_next (fun f u _ => takeCursorReadMarked_changes f u) h
  | markMode w => exact portRow_next takeMarkMode_changes h
  | partition w => exact portRow_next takePartition_changes h
  | memoryStatus =>
    exact portCode_next (take := takeMemoryStatus) (fun _ u _ => (Changes.refl u).answer _ _) h
  | openAccount w => exact portRow_next takeOpenAccount_changes h
  | bar => exact portCode_next (fun f u _ => takeBar_changes f u) h
  | unbar => exact portCode_next (fun f u _ => takeUnbar_changes f u) h
  | adjustBalance w => exact portRow_next takeAdjustBalance_changes h
  | writeLimit w => exact portRow_next takeWriteLimit_changes h
  | closeAccount => exact portCode_next takeCloseAccount_changes h
  | readAccount =>
    exact portCode_next (take := takeReadAccount) (fun _ u _ => (Changes.refl u).answer _ _) h
  | tablePointer w => exact portRow_next takeTablePointer_changes h
  | tableRead w => exact portRow_next takeTableRead_changes h
  | tableWrite w => exact portRow_next takeTableWrite_changes h
  | lineEnable w => exact portRow_next takeLineEnable_changes h
  | lineDisable w => exact portRow_next takeLineDisable_changes h
  | lineFlush w => exact portRow_next takeLineFlush_changes h
  | lineStatus w => exact portRow_next takeLineStatus_changes h
  | lineClear w => exact portRow_next takeLineClear_changes h
  | pageStatus => exact portCode_next (fun f u _ => takePageStatus_changes f u) h
  | cancelPage => exact portCode_next (fun f u _ => takeCancelPage_changes f u) h
  | submitPage w => exact submitPage_changes h
  | purgeTraffic => exact portCode_next takePurgeTraffic_changes h
  | setClock w => exact portRow_next takeSetClock_changes h
  | readClock =>
    exact portCode_next (take := takeReadClock) (fun _ u _ => (Changes.refl u).answer _ _) h
  | channelOpen w => exact portRow_next takeChannelOpen_changes h
  | channelDrain w => exact portRow_next takeChannelDrain_changes h
  | channelClose w => exact portRow_next takeChannelClose_changes h
  | channelStatus w =>
    exact portRow_next (fun _ u => onChan_changes fun _ => (Changes.refl u).answer _ _) h
  | channelClear w => exact portRow_next takeChannelClear_changes h
  | answerBackStatus w =>
    exact portRow_next (fun _ u => onSlot_changes fun _ => (Changes.refl u).answer _ _) h
  | answerBackClear w =>
    exact portRow_next (fun _ u => onSlot_changes fun _ =>
      ((Changes.refl u).setAbSlot _ _).answer _ _) h
  | monitorEnable => exact portCode_next (fun f u _ => takeMonitorEnable_changes f u) h
  | monitorDisable => exact portCode_next (fun f u _ => takeMonitorDisable_changes f u) h
  | monitorStatus =>
    exact portCode_next (take := takeMonitorStatus) (fun _ u _ => (Changes.refl u).answer _ _) h
  | settleBegin => exact portCode_next (fun f u _ => takeSettleBegin_changes f u) h
  | settleRead => exact portCode_next (fun f u _ => takeSettleRead_changes f u) h
  | pendingNibble write cd v => exact execPendingNibble_changes h
  | unknownReportKind c kind slot gen =>
    cases h
    split
    · exact .refl s
    · exact (Changes.refl s).countStray c
  | markedByteRestart n b => exact execMarkedByteRestart_changes h

/-- Every step of the part is a chain of changes. -/
theorem step_changes {s t : State} (h : step s = .next t) : Changes s t := by
  unfold step at h
  split at h
  · cases h; exact .refl s
  · next rest _ =>
    have taken : Changes s { s with pending := rest } := (Changes.refl s).aside rfl rfl
    exact taken.trans (exec_changes h)

/-- A property that every change keeps is kept by every step. -/
theorem step_keeps {P : State → Prop} (hP : ∀ s t, Change s t → P s → P t) {s t : State} (hs : P s)
    (h : step s = .next t) : P t := (step_changes h).keep hP hs

end Sys2Proof.Machine
end

/-! ## Which fields each kind of change leaves -/

section

namespace Sys2Proof.Machine

/-! ### Registers -/

section
variable (s u : State)

@[simp] theorem State.withRegisters_op : (s.withRegisters u).op = s.op := rfl
@[simp] theorem State.withRegisters_pendingRemovals :
    (s.withRegisters u).pendingRemovals = s.pendingRemovals := rfl
@[simp] theorem State.withRegisters_partition : (s.withRegisters u).partition = s.partition := rfl
@[simp] theorem State.withRegisters_directory : (s.withRegisters u).directory = s.directory := rfl
@[simp] theorem State.withRegisters_text : (s.withRegisters u).text = s.text := rfl
@[simp] theorem State.withRegisters_freeBlocks : (s.withRegisters u).freeBlocks = s.freeBlocks := rfl
@[simp] theorem State.withRegisters_accounts : (s.withRegisters u).accounts = s.accounts := rfl
@[simp] theorem State.withRegisters_settings : (s.withRegisters u).settings = s.settings := rfl
@[simp] theorem State.withRegisters_lines : (s.withRegisters u).lines = s.lines := rfl
@[simp] theorem State.withRegisters_slots : (s.withRegisters u).slots = s.slots := rfl
@[simp] theorem State.withRegisters_wheel : (s.withRegisters u).wheel = s.wheel := rfl
@[simp] theorem State.withRegisters_chans : (s.withRegisters u).chans = s.chans := rfl
@[simp] theorem State.withRegisters_monitorOn : (s.withRegisters u).monitorOn = s.monitorOn := rfl
@[simp] theorem State.withRegisters_mons : (s.withRegisters u).mons = s.mons := rfl
@[simp] theorem State.withRegisters_time : (s.withRegisters u).time = s.time := rfl
@[simp] theorem State.withRegisters_head : (s.withRegisters u).head = s.head := rfl
@[simp] theorem State.withRegisters_tablePtr : (s.withRegisters u).tablePtr = s.tablePtr := rfl
@[simp] theorem State.withRegisters_settleCursor : (s.withRegisters u).settleCursor = s.settleCursor := rfl

end

/-! ### The admission of a page (R82) -/

/-- The state with everything blanked that an admission may change. -/
def State.outsideAdmissions (s : State) : State :=
  { s with
    directory := [], freeBlocks := [], poolHold := false, accounts := [], slots := []
    port := { s.port with causes := 0 } }

section
variable (s : State) (i : Nat) (src : Source) (h : Header) (r : Subscriber) (serial : Nat)

theorem State.admitPage_outside :
    (s.admitPage i src h r serial).outsideAdmissions = s.outsideAdmissions := by
  unfold State.admitPage State.admissionEvent
  dsimp only
  rw [State.commit_eq, State.takeBlocks_eq]
  rfl

@[simp] theorem State.admitPage_op : (s.admitPage i src h r serial).op = s.op :=
  (congrArg State.op (s.admitPage_outside i src h r serial) :)
@[simp] theorem State.admitPage_pendingRemovals :
    (s.admitPage i src h r serial).pendingRemovals = s.pendingRemovals :=
  (congrArg State.pendingRemovals (s.admitPage_outside i src h r serial) :)
@[simp] theorem State.admitPage_partition : (s.admitPage i src h r serial).partition = s.partition :=
  (congrArg State.partition (s.admitPage_outside i src h r serial) :)
@[simp] theorem State.admitPage_text : (s.admitPage i src h r serial).text = s.text :=
  (congrArg State.text (s.admitPage_outside i src h r serial) :)
@[simp] theorem State.admitPage_settings : (s.admitPage i src h r serial).settings = s.settings :=
  (congrArg State.settings (s.admitPage_outside i src h r serial) :)
@[simp] theorem State.admitPage_lines : (s.admitPage i src h r serial).lines = s.lines :=
  (congrArg State.lines (s.admitPage_outside i src h r serial) :)
@[simp] theorem State.admitPage_wheel : (s.admitPage i src h r serial).wheel = s.wheel :=
  (congrArg State.wheel (s.admitPage_outside i src h r serial) :)
@[simp] theorem State.admitPage_chans : (s.admitPage i src h r serial).chans = s.chans :=
  (congrArg State.chans (s.admitPage_outside i src h r serial) :)
@[simp] theorem State.admitPage_monitorOn : (s.admitPage i src h r serial).monitorOn = s.monitorOn :=
  (congrArg State.monitorOn (s.admitPage_outside i src h r serial) :)
@[simp] theorem State.admitPage_mons : (s.admitPage i src h r serial).mons = s.mons :=
  (congrArg State.mons (s.admitPage_outside i src h r serial) :)
@[simp] theorem State.admitPage_time : (s.admitPage i src h r serial).time = s.time :=
  (congrArg State.time (s.admitPage_outside i src h r serial) :)
@[simp] theorem State.admitPage_head : (s.admitPage i src h r serial).head = s.head :=
  (congrArg State.head (s.admitPage_outside i src h r serial) :)
@[simp] theorem State.admitPage_tablePtr : (s.admitPage i src h r serial).tablePtr = s.tablePtr :=
  (congrArg State.tablePtr (s.admitPage_outside i src h r serial) :)
@[simp] theorem State.admitPage_settleCursor :
    (s.admitPage i src h r serial).settleCursor = s.settleCursor :=
  (congrArg State.settleCursor (s.admitPage_outside i src h r serial) :)

end

/-! ### The completion of an operation (R16) -/

section
variable (s : State)

@[simp] theorem State.completeOp_partition : (s.completeOp).partition = s.partition := by
  rw [State.completeOp_eq]
@[simp] theorem State.completeOp_directory : (s.completeOp).directory = s.directory := by
  rw [State.completeOp_eq]
@[simp] theorem State.completeOp_text : (s.completeOp).text = s.text := by
  rw [State.completeOp_eq]
@[simp] theorem State.completeOp_freeBlocks : (s.completeOp).freeBlocks = s.freeBlocks := by
  rw [State.completeOp_eq]
@[simp] theorem State.completeOp_accounts : (s.completeOp).accounts = s.accounts := by
  rw [State.completeOp_eq]
@[simp] theorem State.completeOp_settings : (s.completeOp).settings = s.settings := by
  rw [State.completeOp_eq]
@[simp] theorem State.completeOp_lines : (s.completeOp).lines = s.lines := by
  rw [State.completeOp_eq]
@[simp] theorem State.completeOp_slots : (s.completeOp).slots = s.slots := by
  rw [State.completeOp_eq]
@[simp] theorem State.completeOp_wheel : (s.completeOp).wheel = s.wheel := by
  rw [State.completeOp_eq]
@[simp] theorem State.completeOp_chans : (s.completeOp).chans = s.chans := by
  rw [State.completeOp_eq]
@[simp] theorem State.completeOp_monitorOn : (s.completeOp).monitorOn = s.monitorOn := by
  rw [State.completeOp_eq]
@[simp] theorem State.completeOp_mons : (s.completeOp).mons = s.mons := by
  rw [State.completeOp_eq]
@[simp] theorem State.completeOp_time : (s.completeOp).time = s.time := by
  rw [State.completeOp_eq]
@[simp] theorem State.completeOp_head : (s.completeOp).head = s.head := by
  rw [State.completeOp_eq]
@[simp] theorem State.completeOp_tablePtr : (s.completeOp).tablePtr = s.tablePtr := by
  rw [State.completeOp_eq]
@[simp] theorem State.completeOp_settleCursor : (s.completeOp).settleCursor = s.settleCursor := by
  rw [State.completeOp_eq]
@[simp] theorem State.completeOp_op :
    s.completeOp.op = s.pendingRemovals.head?.map (fun a => .removal a true) := by
  rw [State.completeOp_eq]
@[simp] theorem State.completeOp_pendingRemovals :
    s.completeOp.pendingRemovals = s.pendingRemovals.tail := by
  rw [State.completeOp_eq]

end

/-! ### LINK ACCOUNT (R12) and the removal of a record (R17) -/

section
variable (s : State) (a old new : Nat)

/-- R12: the reference counts move in the accounts only. -/
theorem State.moveRefs_frame :
    s.moveRefs old new = { s with accounts := (s.moveRefs old new).accounts } := by
  unfold State.moveRefs
  split <;> rfl

theorem State.linked_frame :
    s.linked a old new =
      { s with accounts := (s.linked a old new).accounts, directory := (s.linked a old new).directory } := by
  unfold State.linked State.hostWrite State.updateRecord
  rw [State.moveRefs_frame]

@[simp] theorem State.linked_op : (s.linked a old new).op = s.op := by
  rw [State.linked_frame]
@[simp] theorem State.linked_pendingRemovals :
    (s.linked a old new).pendingRemovals = s.pendingRemovals := by
  rw [State.linked_frame]
@[simp] theorem State.linked_partition : (s.linked a old new).partition = s.partition := by
  rw [State.linked_frame]
@[simp] theorem State.linked_text : (s.linked a old new).text = s.text := by
  rw [State.linked_frame]
@[simp] theorem State.linked_freeBlocks : (s.linked a old new).freeBlocks = s.freeBlocks := by
  rw [State.linked_frame]
@[simp] theorem State.linked_settings : (s.linked a old new).settings = s.settings := by
  rw [State.linked_frame]
@[simp] theorem State.linked_lines : (s.linked a old new).lines = s.lines := by
  rw [State.linked_frame]
@[simp] theorem State.linked_slots : (s.linked a old new).slots = s.slots := by
  rw [State.linked_frame]
@[simp] theorem State.linked_wheel : (s.linked a old new).wheel = s.wheel := by
  rw [State.linked_frame]
@[simp] theorem State.linked_chans : (s.linked a old new).chans = s.chans := by
  rw [State.linked_frame]
@[simp] theorem State.linked_monitorOn : (s.linked a old new).monitorOn = s.monitorOn := by
  rw [State.linked_frame]
@[simp] theorem State.linked_mons : (s.linked a old new).mons = s.mons := by
  rw [State.linked_frame]
@[simp] theorem State.linked_time : (s.linked a old new).time = s.time := by
  rw [State.linked_frame]
@[simp] theorem State.linked_head : (s.linked a old new).head = s.head := by
  rw [State.linked_frame]
@[simp] theorem State.linked_tablePtr : (s.linked a old new).tablePtr = s.tablePtr := by
  rw [State.linked_frame]
@[simp] theorem State.linked_settleCursor : (s.linked a old new).settleCursor = s.settleCursor := by
  rw [State.linked_frame]

/-- R17: a removal changes the directory and the accounts only. -/
theorem State.removeRecord_frame :
    s.removeRecord a =
      { s with accounts := (s.removeRecord a).accounts
               directory := s.directory.filter (fun r => r.addr ≠ a) } := by
  unfold State.removeRecord
  dsimp only
  split <;> rfl

@[simp] theorem State.removeRecord_op : (s.removeRecord a).op = s.op := by
  rw [State.removeRecord_frame]
@[simp] theorem State.removeRecord_pendingRemovals :
    (s.removeRecord a).pendingRemovals = s.pendingRemovals := by
  rw [State.removeRecord_frame]
@[simp] theorem State.removeRecord_partition : (s.removeRecord a).partition = s.partition := by
  rw [State.removeRecord_frame]
@[simp] theorem State.removeRecord_text : (s.removeRecord a).text = s.text := by
  rw [State.removeRecord_frame]
@[simp] theorem State.removeRecord_freeBlocks : (s.removeRecord a).freeBlocks = s.freeBlocks := by
  rw [State.removeRecord_frame]
@[simp] theorem State.removeRecord_settings : (s.removeRecord a).settings = s.settings := by
  rw [State.removeRecord_frame]
@[simp] theorem State.removeRecord_lines : (s.removeRecord a).lines = s.lines := by
  rw [State.removeRecord_frame]
@[simp] theorem State.removeRecord_slots : (s.removeRecord a).slots = s.slots := by
  rw [State.removeRecord_frame]
@[simp] theorem State.removeRecord_wheel : (s.removeRecord a).wheel = s.wheel := by
  rw [State.removeRecord_frame]
@[simp] theorem State.removeRecord_chans : (s.removeRecord a).chans = s.chans := by
  rw [State.removeRecord_frame]
@[simp] theorem State.removeRecord_monitorOn : (s.removeRecord a).monitorOn = s.monitorOn := by
  rw [State.removeRecord_frame]
@[simp] theorem State.removeRecord_mons : (s.removeRecord a).mons = s.mons := by
  rw [State.removeRecord_frame]
@[simp] theorem State.removeRecord_time : (s.removeRecord a).time = s.time := by
  rw [State.removeRecord_frame]
@[simp] theorem State.removeRecord_head : (s.removeRecord a).head = s.head := by
  rw [State.removeRecord_frame]
@[simp] theorem State.removeRecord_tablePtr : (s.removeRecord a).tablePtr = s.tablePtr := by
  rw [State.removeRecord_frame]
@[simp] theorem State.removeRecord_settleCursor : (s.removeRecord a).settleCursor = s.settleCursor := by
  rw [State.removeRecord_frame]
@[simp] theorem State.removeRecord_directory :
    (s.removeRecord a).directory = s.directory.filter (fun r => r.addr ≠ a) := by
  rw [State.removeRecord_frame]

end

/-! ### A field that takes effect (R24, R41, R42, R62, R119, R150, R152) -/

/-- The state with everything blanked that a field taking effect may change. -/
def State.outsideFields (s : State) : State :=
  { s with
    settings := [], mons := State.reset.mons, lines := State.reset.lines, poolHold := false
    port := { s.port with causes := 0 } }

theorem State.moveLevel_outside (s : State) (c : Chan) (l : Nat) :
    (s.moveLevel c l).outsideFields = s.outsideFields := by
  rw [State.moveLevel_frame]; rfl

theorem State.recomputePool_outside (s : State) : s.recomputePool.outsideFields = s.outsideFields := by
  rw [State.recomputePool_eq]; rfl

theorem State.writeField_outside (s : State) (f : Field) (v : Nat) :
    (s.writeField f v).outsideFields = s.outsideFields := by
  have boot : ∀ u : State, u.toBootLevel.outsideFields = u.outsideFields := fun u => by
    rw [State.toBootLevel, State.moveLevel_outside, State.moveLevel_outside]
  have leave : ∀ (u : State) c l, (u.leaveLevel c l).outsideFields = u.outsideFields := fun u c l => by
    unfold State.leaveLevel
    split
    · exact State.moveLevel_outside ..
    · rfl
  unfold State.writeField
  dsimp only
  split
  · unfold State.writeLow
    rw [State.recomputePool_outside]
    split <;> rfl
  · split
    · exact State.recomputePool_outside _
    · split
      · unfold State.writeT1
        dsimp only
        split <;> rfl
      · split
        · rfl
        · split
          · unfold State.writeEnable
            dsimp only
            split
            · rfl
            · split
              · split
                · rw [leave, leave]; rfl
                · rfl
              · rw [boot]; rfl
          · split
            · unfold State.writeBoot
              dsimp only
              split
              · rfl
              · rw [boot]; rfl
            · split
              · unfold State.writeThreshold
                split <;> rfl
              · rfl

section
variable (s : State) (f : Field) (v : Nat)

@[simp] theorem State.writeField_op : (s.writeField f v).op = s.op :=
  (congrArg State.op (s.writeField_outside f v) :)
@[simp] theorem State.writeField_pendingRemovals :
    (s.writeField f v).pendingRemovals = s.pendingRemovals :=
  (congrArg State.pendingRemovals (s.writeField_outside f v) :)
@[simp] theorem State.writeField_partition : (s.writeField f v).partition = s.partition :=
  (congrArg State.partition (s.writeField_outside f v) :)
@[simp] theorem State.writeField_directory : (s.writeField f v).directory = s.directory :=
  (congrArg State.directory (s.writeField_outside f v) :)
@[simp] theorem State.writeField_text : (s.writeField f v).text = s.text :=
  (congrArg State.text (s.writeField_outside f v) :)
@[simp] theorem State.writeField_freeBlocks : (s.writeField f v).freeBlocks = s.freeBlocks :=
  (congrArg State.freeBlocks (s.writeField_outside f v) :)
@[simp] theorem State.writeField_accounts : (s.writeField f v).accounts = s.accounts :=
  (congrArg State.accounts (s.writeField_outside f v) :)
@[simp] theorem State.writeField_slots : (s.writeField f v).slots = s.slots :=
  (congrArg State.slots (s.writeField_outside f v) :)
@[simp] theorem State.writeField_wheel : (s.writeField f v).wheel = s.wheel :=
  (congrArg State.wheel (s.writeField_outside f v) :)
@[simp] theorem State.writeField_chans : (s.writeField f v).chans = s.chans :=
  (congrArg State.chans (s.writeField_outside f v) :)
@[simp] theorem State.writeField_monitorOn : (s.writeField f v).monitorOn = s.monitorOn :=
  (congrArg State.monitorOn (s.writeField_outside f v) :)
@[simp] theorem State.writeField_time : (s.writeField f v).time = s.time :=
  (congrArg State.time (s.writeField_outside f v) :)
@[simp] theorem State.writeField_head : (s.writeField f v).head = s.head :=
  (congrArg State.head (s.writeField_outside f v) :)
@[simp] theorem State.writeField_tablePtr : (s.writeField f v).tablePtr = s.tablePtr :=
  (congrArg State.tablePtr (s.writeField_outside f v) :)
@[simp] theorem State.writeField_settleCursor : (s.writeField f v).settleCursor = s.settleCursor :=
  (congrArg State.settleCursor (s.writeField_outside f v) :)

end

end Sys2Proof.Machine
end

/-! ## The directory in order and the reference counts exact (R4, R10, R12, R17) -/

section

namespace Sys2Proof.Machine

/-! ### Records inserted, removed and told apart -/

theorem insertRecord_cons (r q : Subscriber) (d : List Subscriber) :
    insertRecord r (q :: d) = if q.addr < r.addr then q :: insertRecord r d else r :: q :: d := by
  by_cases h : q.addr < r.addr <;> simp [insertRecord, h]

/-- R10: an insertion adds the one record. -/
theorem insertRecord_perm (r : Subscriber) (d : List Subscriber) : (insertRecord r d).Perm (r :: d) := by
  refine List.perm_middle.trans (.of_eq ?_)
  rw [List.takeWhile_append_dropWhile]

/-- R4, R10: an insertion keeps the directory in order. -/
theorem insertRecord_sorted {r : Subscriber} {d : List Subscriber}
    (hd : d.Pairwise (fun p q => p.addr < q.addr)) (new : ∀ q ∈ d, q.addr ≠ r.addr) :
    (insertRecord r d).Pairwise (fun p q => p.addr < q.addr) := by
  induction d with
  | nil => simp [insertRecord]
  | cons q rest ih =>
    obtain ⟨hq, hrest⟩ := List.pairwise_cons.1 hd
    have hne := new q List.mem_cons_self
    rw [insertRecord_cons]
    split
    · next hlt =>
      refine List.pairwise_cons.2 ⟨fun p hp => ?_, ih hrest fun p hp => new p (List.mem_cons_of_mem _ hp)⟩
      rcases List.mem_cons.1 ((insertRecord_perm r rest).mem_iff.1 hp) with rfl | hp'
      · exact hlt
      · exact hq p hp'
    · refine List.pairwise_cons.2 ⟨fun p hp => ?_, hd⟩
      rcases List.mem_cons.1 hp with rfl | hp'
      · omega
      · have := hq p hp'; omega

/-- R4: in a directory in order the other records have other addresses. -/
theorem exists_others {d : List Subscriber} (hd : d.Pairwise (fun p q => p.addr < q.addr))
    {r : Subscriber} (hr : r ∈ d) :
    ∃ rest, d.Perm (r :: rest) ∧ ∀ q ∈ rest, q.addr ≠ r.addr := by
  have nodup : d.Nodup := hd.imp fun h he => by rw [he] at h; exact Nat.lt_irrefl _ h
  refine ⟨d.erase r, List.perm_cons_erase hr, fun q hq ha => ?_⟩
  have hqr := eq_of_addr_eq hd (List.mem_of_mem_erase hq) hr ha
  rw [hqr] at hq
  exact nodup.not_mem_erase hq

/-- R1: no directory holds more than 4,096 records. -/
theorem dirCapacity_le (p : Nat) : dirCapacity p ≤ 4096 := Nat.sub_le ..

/-- R15: the operation after an ending is the one before it, or the removal that the ending begins. -/
theorem State.endEntry_op_cases (s : State) (k : Ending) (t : Tag) :
    (s.endEntry k t).op = s.op ∨ ∃ a, (s.endEntry k t).op = some (.removal a true) := by
  cases h : s.entry t with
  | none => exact .inl (by rw [State.endEntry_of_none k h])
  | some e =>
    cases hr : s.record e.addr with
    | none => exact .inl (State.endEntry_of_no_record k h hr).1
    | some r =>
      rw [(State.endEntry_of_record k h hr).1]
      split
      · exact .inr ⟨_, rfl⟩
      · exact .inl rfl

theorem State.admitPage_directory (s : State) (i : Nat) (src : Source) (h : Header) (r : Subscriber)
    (serial : Nat) :
    (s.admitPage i src h r serial).directory = s.directory.map (fun q =>
      if q.addr = h.addr then { q with nextSerial := (serial + 1) % 64, live := q.live + 1 } else q) := by
  unfold State.admitPage State.admissionEvent
  dsimp only
  rw [State.commit_eq, State.takeBlocks_eq]
  rfl

theorem State.linked_directory (s : State) (a old new : Nat) :
    (s.linked a old new).directory = s.directory.map (fun q =>
      if q.addr = a then Subscriber.hostMarked { q with account := new } s.markMode else q) := by
  unfold State.linked
  rw [State.moveRefs_frame]
  rfl

/-! ### The directory in order -/

/-- No addition and no rebuild is in progress. -/
def State.NothingComing (s : State) : Prop :=
  (∀ r, s.op ≠ some (.addition r)) ∧ ∀ p, s.op ≠ some (.rebuild p)

theorem State.NothingComing.of_eq {s : State} {o : Option Operation} (h : s.op = o)
    (ha : ∀ r, o ≠ some (.addition r) := by intros; simp)
    (hr : ∀ p, o ≠ some (.rebuild p) := by intros; simp) :
    s.NothingComing := ⟨h ▸ ha, h ▸ hr⟩

/-- R16: what follows an operation is a removal or nothing. -/
theorem State.completeOp_nothingComing (s : State) : s.completeOp.NothingComing := by
  refine .of_eq s.completeOp_op ?_ ?_ <;> intro x <;> cases s.pendingRemovals <;> simp

/-- Records rewritten under their addresses keep the directory in order. -/
theorem State.DirectoryOk.mapped {s t : State} (h : s.DirectoryOk) (f : Subscriber → Subscriber)
    (addr : ∀ r, (f r).addr = r.addr) (dir : t.directory = s.directory.map f)
    (part : t.partition = s.partition) (op : t.op = s.op ∨ t.NothingComing) : t.DirectoryOk where
  sorted := by
    rw [dir, List.pairwise_map]
    simpa only [addr] using h.sorted
  room := by rw [dir, part, List.length_map]; exact h.room
  adding r hr := by
    rcases op with ho | ho
    · rw [dir, part, List.length_map]
      obtain ⟨new, room⟩ := h.adding r (ho ▸ hr)
      exact ⟨by simpa [addr] using new, room⟩
    · exact absurd hr (ho.1 r)
  rebuilding p hp := by
    rcases op with ho | ho
    · rw [dir, List.length_map]; exact h.rebuilding p (ho ▸ hp)
    · exact absurd hp (ho.2 p)

theorem State.DirectoryOk.congr {s t : State} (h : s.DirectoryOk) (dir : t.directory = s.directory)
    (part : t.partition = s.partition) (op : t.op = s.op) : t.DirectoryOk :=
  h.mapped id (fun _ => rfl) (by rw [dir, List.map_id]) part (.inl op)

/-- R3: after a power-on reset the directory is empty. -/
theorem State.restarted_nothingComing {o : Option Operation} (clearing : o = none ∨ o = some .autoclear)
    (u : State) : (State.restarted o u).NothingComing := by
  refine .of_eq (o := o) rfl ?_ ?_ <;> rcases clearing with rfl | rfl <;> intro _ <;> simp

theorem State.restarted_directoryOk {o : Option Operation} (clearing : o = none ∨ o = some .autoclear)
    (u : State) : (State.restarted o u).DirectoryOk :=
  have coming := State.restarted_nothingComing clearing u
  { sorted := List.Pairwise.nil, room := Nat.zero_le _, adding := fun q hq => absurd hq (coming.1 q)
    rebuilding := fun p hp => absurd hp (coming.2 p) }

theorem State.restarted_refsOk {o : Option Operation} (clearing : o = none ∨ o = some .autoclear)
    (u : State) : (State.restarted o u).RefsOk :=
  { directory := State.restarted_directoryOk clearing u
    named := fun _ hr => absurd hr List.not_mem_nil
    adding := fun r hr => absurd hr ((State.restarted_nothingComing clearing u).1 r)
    refs := fun _ => rfl }

/-- R4, R10, R17: every change keeps the directory in order and within its capacity. -/
theorem Change.keeps_directoryOk {s t : State} (hc : Change s t) (h : s.DirectoryOk) :
    t.DirectoryOk := by
  cases hc
  case ending k tag =>
    have op : (s.endEntry k tag).op = s.op ∨ (s.endEntry k tag).NothingComing :=
      (s.endEntry_op_cases k tag).imp_right fun ⟨a, ha⟩ => .of_eq ha
    cases he : s.entry tag with
    | none => rw [State.endEntry_of_none k he]; exact h
    | some e =>
      refine h.mapped _ (fun r => ?_) (State.endEntry_directory k he) (by simp) op
      split <;> rfl
  case admission src hdr i r serial _ _ _ =>
    refine h.mapped _ (fun r => ?_) (State.admitPage_directory ..) (by simp) (.inl (by simp))
    split <;> rfl
  case records f same => exact h.mapped f (fun r => (same r).1) rfl rfl (.inl rfl)
  case link a new r _ _ =>
    refine h.mapped _ (fun r => ?_) (State.linked_directory ..) (by simp) (.inl (by simp))
    split <;> rfl
  case begins o _ may =>
    refine { sorted := h.sorted, room := h.room, adding := fun r hr => ?_, rebuilding := fun p hp => ?_ }
    · cases hr
      obtain ⟨new, room, -, -⟩ := may
      exact ⟨State.record_eq_none.1 new, room⟩
    · cases hp
      exact may.1
  case purges i j _ => exact h.mapped id (fun _ => rfl) (List.map_id _).symm rfl (.inr (.of_eq rfl))
  case purged i _ =>
    exact h.mapped id (fun _ => rfl) (by simp) (by simp) (.inr s.completeOp_nothingComing)
  case adds r ho =>
    obtain ⟨new, room⟩ := h.adding r ho
    have coming := (State.raiseRefs { s with directory := insertRecord r s.directory }
      r.account).completeOp_nothingComing
    refine { sorted := ?_, room := ?_, adding := fun q hq => absurd hq (coming.1 q)
             rebuilding := fun p hp => absurd hp (coming.2 p) }
    · simpa using insertRecord_sorted h.sorted new
    · simpa [(insertRecord_perm r s.directory).length_eq] using room
  case removes a byEnding _ =>
    have coming := (s.removeRecord a).completeOp_nothingComing
    refine { sorted := ?_, room := ?_, adding := fun q hq => absurd hq (coming.1 q)
             rebuilding := fun p hp => absurd hp (coming.2 p) }
    · simpa using h.sorted.filter (fun r => r.addr ≠ a)
    · simpa using (List.length_filter_le _ _).trans h.room
  case rebuilds p ho =>
    have coming := State.completeOp_nothingComing
      { s with partition := p, freeBlocks := List.range (poolCapacity p) }
    refine { sorted := ?_, room := ?_, adding := fun q hq => absurd hq (coming.1 q)
             rebuilding := fun p hp => absurd hp (coming.2 p) }
    · simpa using h.sorted
    · simpa using h.rebuilding p ho
  case restarts o clearing u _ => exact State.restarted_directoryOk clearing u
  all_goals exact h.congr (by simp) (by simp) (by simp)

/-! ### The reference counts -/

theorem State.acct_congr {s t : State} (h : t.accounts = s.accounts) (i : Nat) : t.acct i = s.acct i := by
  rw [State.acct, State.acct, h]

theorem State.acct_raiseRefs (s : State) (i j : Nat) :
    (s.raiseRefs i).acct j =
      if j = i then { s.acct j with refs := satAdd 4096 (s.acct j).refs 1 } else s.acct j := by
  split
  · next h => subst h; exact State.acct_setAcct ..
  · next h => exact State.acct_setAcct_ne s _ h

theorem State.acct_lowerRefs (s : State) (i j : Nat) :
    (s.lowerRefs i).acct j =
      if j = i then { s.acct j with refs := (s.acct j).refs - 1 } else s.acct j := by
  split
  · next h => subst h; exact State.acct_setAcct ..
  · next h => exact State.acct_setAcct_ne s _ h

/-- R12: the reference counts after LINK ACCOUNT, which stay where the account is the one named. -/
theorem State.acct_moveRefs (s : State) (old new j : Nat) :
    (s.moveRefs old new).acct j =
      if old = new then s.acct j
      else if j = old then { s.acct j with refs := (s.acct j).refs - 1 }
      else if j = new then { s.acct j with refs := satAdd 4096 (s.acct j).refs 1 }
      else s.acct j := by
  unfold State.moveRefs
  by_cases h : old = new
  · rw [if_pos h, if_pos h]
  · rw [if_neg h, if_neg h, State.acct_raiseRefs, State.acct_lowerRefs]
    by_cases hj : j = old
    · rw [if_pos hj, if_neg (hj ▸ h), if_pos hj]
    · simp only [hj, if_false]

@[simp] theorem State.acct_linked (s : State) (a old new j : Nat) :
    (s.linked a old new).acct j = (s.moveRefs old new).acct j := rfl

/-- R36: an admission leaves every reference count and every account's state. -/
theorem State.acct_admitPage_refs (s : State) (i : Nat) (src : Source) (h : Header) (r : Subscriber)
    (serial j : Nat) :
    ((s.admitPage i src h r serial).acct j).refs = (s.acct j).refs ∧
      ((s.admitPage i src h r serial).acct j).state = (s.acct j).state := by
  have event : ∀ (u : State) k c, ((u.admissionEvent k c).acct j).refs = (u.acct j).refs ∧
      ((u.admissionEvent k c).acct j).state = (u.acct j).state := by
    intro u k c
    unfold State.admissionEvent
    by_cases hj : j = k
    · subst hj; rw [State.acct_commit]; exact ⟨rfl, rfl⟩
    · rw [State.acct_commit_ne u _ hj]; exact ⟨rfl, rfl⟩
  have take : (s.takeBlocks (blocksOf h.len)).acct j = s.acct j :=
    State.acct_congr (by rw [State.takeBlocks_eq]) j
  rw [← take]
  exact event _ _ _

/-- The same records under the same accounts keep the reference counts exact. -/
theorem State.RefsOk.mapped {s t : State} (h : s.RefsOk) (ok : t.DirectoryOk)
    (f : Subscriber → Subscriber) (account : ∀ r, (f r).account = r.account)
    (dir : t.directory = s.directory.map f)
    (accts : ∀ i, (t.acct i).refs = (s.acct i).refs ∧ (t.acct i).state = (s.acct i).state)
    (op : t.op = s.op ∨ t.NothingComing) : t.RefsOk where
  directory := ok
  named r hr := by
    rw [dir] at hr
    obtain ⟨q, hq, rfl⟩ := List.mem_map.1 hr
    rw [account, (accts _).2]
    exact h.named q hq
  adding r hr := by
    rcases op with ho | ho
    · rw [(accts _).2]; exact h.adding r (ho ▸ hr)
    · exact absurd hr (ho.1 r)
  refs i := by
    rw [(accts i).1, h.refs i, dir, List.countP_map]
    congr 1
    funext r
    simp only [Function.comp_apply, account]

theorem State.RefsOk.congr {s t : State} (h : s.RefsOk) (ok : t.DirectoryOk)
    (dir : t.directory = s.directory) (accts : t.accounts = s.accounts) (op : t.op = s.op) : t.RefsOk :=
  h.mapped ok id (fun _ => rfl) (by rw [dir, List.map_id])
    (fun i => by rw [State.acct_congr accts]; exact ⟨rfl, rfl⟩) (.inl op)

/-- R12: LINK ACCOUNT moves one record from one count to the other. -/
theorem State.RefsOk.linked {s : State} (h : s.RefsOk) {a new : Nat} {r : Subscriber}
    (found : s.record a = some r) (named : (s.acct new).state ≠ .unused)
    (ok : (s.linked a r.account new).DirectoryOk) : (s.linked a r.account new).RefsOk := by
  obtain ⟨hr, rfl⟩ := State.record_eq_some found
  obtain ⟨rest, hperm, others⟩ := exists_others h.directory.sorted hr
  have state : ∀ i, ((s.linked r.addr r.account new).acct i).state = (s.acct i).state := by
    intro i
    rw [State.acct_linked, State.acct_moveRefs]
    split
    · rfl
    · split
      · rfl
      · split <;> rfl
  obtain ⟨r', hr', dir⟩ : ∃ r' : Subscriber, r'.account = new ∧
      (s.linked r.addr r.account new).directory.Perm (r' :: rest) := by
    refine ⟨Subscriber.hostMarked { r with account := new } s.markMode, rfl, ?_⟩
    rw [State.linked_directory]
    refine (hperm.map _).trans (.of_eq ?_)
    rw [List.map_cons, if_pos rfl]
    congr 1
    exact (List.map_congr_left fun q hq => if_neg (others q hq)).trans (List.map_id' rest)
  refine { directory := ok, named := fun q hq => ?_, adding := fun q hq => ?_, refs := fun i => ?_ }
  · rw [state]
    rcases List.mem_cons.1 (dir.mem_iff.1 hq) with rfl | hq'
    · rw [hr']; exact named
    · exact h.named q (hperm.mem_iff.2 (List.mem_cons_of_mem _ hq'))
  · rw [state]
    exact h.adding q (by simpa using hq)
  · have room := h.directory.room.trans (dirCapacity_le _)
    have count := List.countP_le_length (l := rest) (p := fun q => decide (q.account = i))
    have hi := h.refs i
    rw [hperm.length_eq, List.length_cons] at room
    rw [hperm.countP_eq, List.countP_cons] at hi
    rw [dir.countP_eq, List.countP_cons, State.acct_linked, State.acct_moveRefs]
    simp only [decide_eq_true_eq] at hi ⊢
    rw [hr']
    by_cases h1 : r.account = new
    · rw [if_pos h1, hi, h1]
    · rw [if_neg h1]
      by_cases h2 : i = r.account
      · subst h2
        rw [if_pos rfl] at hi ⊢
        rw [if_neg (Ne.symm h1)]
        dsimp only
        omega
      · rw [if_neg h2]
        rw [if_neg (Ne.symm h2)] at hi
        by_cases h3 : i = new
        · rw [if_pos h3, if_pos h3.symm]
          simp only [satAdd]
          omega
        · rw [if_neg h3, if_neg (Ne.symm h3)]
          exact hi

/-- R10: a completed addition is one more reference to its account. -/
theorem State.RefsOk.added {s : State} (h : s.RefsOk) {r : Subscriber} (ho : s.op = some (.addition r))
    (ok : (State.completeOp
      ({ s with directory := insertRecord r s.directory }.raiseRefs r.account)).DirectoryOk) :
    (State.completeOp
      ({ s with directory := insertRecord r s.directory }.raiseRefs r.account)).RefsOk := by
  have coming := (State.raiseRefs { s with directory := insertRecord r s.directory }
    r.account).completeOp_nothingComing
  have acct : ∀ i, (State.completeOp
      ({ s with directory := insertRecord r s.directory }.raiseRefs r.account)).acct i =
      if i = r.account then { s.acct i with refs := satAdd 4096 (s.acct i).refs 1 } else s.acct i :=
    fun i => (State.acct_congr (State.completeOp_accounts _) i).trans (State.acct_raiseRefs ..)
  have hperm := insertRecord_perm r s.directory
  refine { directory := ok, named := fun q hq => ?_, adding := fun q hq => absurd hq (coming.1 q)
           refs := fun i => ?_ }
  · have state : ((s.acct q.account).state ≠ .unused) := by
      rcases List.mem_cons.1 (hperm.mem_iff.1 (by simpa using hq)) with rfl | hq'
      · exact h.adding q ho
      · exact h.named q hq'
    rw [acct]
    split <;> exact state
  · have room := (h.directory.adding r ho).2.trans_le (dirCapacity_le _)
    have count := List.countP_le_length (l := s.directory) (p := fun q => decide (q.account = i))
    have hi := h.refs i
    rw [State.completeOp_directory, State.raiseRefs_directory, hperm.countP_eq, List.countP_cons, acct]
    by_cases h1 : i = r.account
    · subst h1
      simp only [if_true, satAdd, decide_true]
      omega
    · simp only [if_neg h1, decide_eq_true_eq, Ne.symm h1, if_false]
      exact hi

theorem State.acct_removeRecord {s : State} {a : Nat} (r : Subscriber) (found : s.record a = some r)
    (i : Nat) :
    (s.removeRecord a).acct i =
      if i = r.account then { s.acct i with refs := (s.acct i).refs - 1 } else s.acct i := by
  have hacct : (s.removeRecord a).acct i = (s.lowerRefs r.account).acct i := by
    unfold State.removeRecord
    rw [found]
    rfl
  rw [hacct, State.acct_lowerRefs]

/-- R17: a completed removal is one reference less to its record's account. -/
theorem State.RefsOk.removed {s : State} (h : s.RefsOk) (a : Nat)
    (ok : (s.removeRecord a).completeOp.DirectoryOk) : (s.removeRecord a).completeOp.RefsOk := by
  have coming := (s.removeRecord a).completeOp_nothingComing
  have accts := State.acct_congr (s.removeRecord a).completeOp_accounts
  cases found : s.record a with
  | none =>
    have same : (s.removeRecord a).accounts = s.accounts := by
      unfold State.removeRecord
      rw [found]
    refine h.mapped ok id (fun _ => rfl) ?_ (fun i => ?_) (.inr coming)
    · rw [State.completeOp_directory, State.removeRecord_directory, List.map_id,
        List.filter_eq_self.2 fun q hq => by simpa using State.record_eq_none.1 found q hq]
    · rw [accts, State.acct_congr same]
      exact ⟨rfl, rfl⟩
  | some r =>
    obtain ⟨hr, rfl⟩ := State.record_eq_some found
    obtain ⟨rest, hperm, others⟩ := exists_others h.directory.sorted hr
    have dir : (s.removeRecord r.addr).completeOp.directory.Perm rest := by
      rw [State.completeOp_directory, State.removeRecord_directory]
      refine (hperm.filter _).trans (.of_eq ?_)
      rw [List.filter_cons_of_neg (by simp),
        List.filter_eq_self.2 fun q hq => by simpa using others q hq]
    refine { directory := ok, named := fun q hq => ?_, adding := fun q hq => absurd hq (coming.1 q)
             refs := fun i => ?_ }
    · have state := h.named q (hperm.mem_iff.2 (List.mem_cons_of_mem _ (dir.mem_iff.1 hq)))
      rw [accts, State.acct_removeRecord r found]
      split <;> exact state
    · have hi := h.refs i
      rw [hperm.countP_eq, List.countP_cons] at hi
      rw [dir.countP_eq, accts, State.acct_removeRecord r found]
      by_cases h1 : i = r.account
      · subst h1
        simp only [decide_true, if_true] at hi ⊢
        omega
      · simp only [if_neg h1, decide_eq_true_eq, Ne.symm h1, if_false] at hi ⊢
        omega

/-- R12: every change keeps the records' accounts OPEN or BARRED and the reference counts exact. -/
theorem Change.keeps_refsOk {s t : State} (hc : Change s t) (h : s.RefsOk) : t.RefsOk := by
  have ok := hc.keeps_directoryOk h.directory
  cases hc
  case ending k tag =>
    have op : (s.endEntry k tag).op = s.op ∨ (s.endEntry k tag).NothingComing :=
      (s.endEntry_op_cases k tag).imp_right fun ⟨a, ha⟩ => .of_eq ha
    cases he : s.entry tag with
    | none => rw [State.endEntry_of_none k he]; exact h
    | some e =>
      refine h.mapped ok _ (fun r => ?_) (State.endEntry_directory k he) (s.acct_endEntry_refs k tag) op
      split <;> rfl
  case admission src hdr i r serial _ _ _ =>
    refine h.mapped ok _ (fun r => ?_) (State.admitPage_directory ..)
      (s.acct_admitPage_refs i src hdr r serial) (.inl (by simp))
    split <;> rfl
  case account i a may =>
    have acct : ∀ j, ((s.setAcct i a).acct j).refs = (s.acct j).refs := by
      intro j
      by_cases hj : j = i
      · subst hj; rw [State.acct_setAcct]; exact may.refs
      · rw [State.acct_setAcct_ne s a hj]
    have state : ∀ j, ((s.setAcct i a).acct j).state = .unused → (s.acct j).state = .unused ∨
        ((s.acct j).refs = 0 ∧ s.op = none) := by
      intro j
      by_cases hj : j = i
      · subst hj; rw [State.acct_setAcct]; exact may.state
      · rw [State.acct_setAcct_ne s a hj]; exact .inl
    refine { directory := ok, named := fun r hr hu => ?_, adding := fun r hr hu => ?_
             refs := fun j => (acct j).trans (h.refs j) }
    · rcases state _ hu with hold | ⟨hzero, -⟩
      · exact h.named r hr hold
      · rw [h.refs, List.countP_eq_zero] at hzero
        exact hzero r hr (by simp)
    · rcases state _ hu with hold | ⟨-, hnone⟩
      · exact h.adding r hr hold
      · rw [State.setAcct_op, hnone] at hr
        cases hr
  case records f same =>
    exact h.mapped ok f (fun r => (same r).2.1) rfl (fun _ => ⟨rfl, rfl⟩) (.inl rfl)
  case link a new r found named => exact h.linked found named ok
  case begins o _ may =>
    refine { directory := ok, named := h.named, adding := fun r hr => ?_, refs := h.refs }
    cases hr
    obtain ⟨-, -, named, -⟩ := may
    exact named
  case purges i j _ =>
    exact h.mapped ok id (fun _ => rfl) (List.map_id _).symm (fun _ => ⟨rfl, rfl⟩) (.inr (.of_eq rfl))
  case purged i _ =>
    exact h.mapped ok id (fun _ => rfl) (by simp)
      (fun i => by rw [State.acct_congr s.completeOp_accounts]; exact ⟨rfl, rfl⟩)
      (.inr s.completeOp_nothingComing)
  case adds r ho => exact h.added ho ok
  case removes a byEnding _ => exact h.removed a ok
  case rebuilds p _ =>
    exact h.mapped ok id (fun _ => rfl) (by simp)
      (fun i => by
        rw [State.acct_congr (s := s) (by simp)]
        exact ⟨rfl, rfl⟩)
      (.inr (State.completeOp_nothingComing _))
  case restarts o clearing u _ => exact State.restarted_refsOk clearing u
  all_goals exact h.congr ok (by simp) (by simp) (by simp)

/-- Settles O55: every change keeps the directory in order and the reference counts exact. -/
theorem stepsKeepTheDirectoryInOrder : Obligations.StepsKeepTheDirectoryInOrder :=
  ⟨fun _ _ => step_keeps fun _ _ => Change.keeps_directoryOk,
   fun _ _ => step_keeps fun _ _ => Change.keeps_refsOk⟩

end Sys2Proof.Machine
end

/-! ## The pool whole, the live counts exact and the serials apart (R15, R23, R83) -/

section

namespace Sys2Proof.Machine

/-! ### Admissions (R80 to R83) -/

/-- R79, R80: what an admission rests on. -/
theorem State.verdict_admitted {s : State} {h : Header} {i : Nat} {r : Subscriber} {serial : Nat}
    (hv : s.verdict h = .admitted i r serial) :
    s.record h.addr = some r ∧ s.recordRefusal h r = none ∧ s.freeIndex = some i ∧
      serial = s.pickSerial h.addr r.nextSerial := by
  unfold State.verdict at hv
  split at hv
  · cases hv
  · next hr =>
    split at hv
    · cases hv
    · next href hfree => cases hv; exact ⟨hr, href, hfree, rfl⟩
    · cases hv

theorem State.freeIndex_eq_some {s : State} {i : Nat} (h : s.freeIndex = some i) :
    i < 256 ∧ (s.slot i).entry = none :=
  ⟨by simpa [slotIndices] using List.mem_of_find?_eq_some h, by simpa using List.find?_some h⟩

theorem State.live_lt_of_recordRefusal {s : State} {h : Header} {r : Subscriber}
    (hr : s.recordRefusal h r = none) : r.live < 8 := by
  unfold State.recordRefusal at hr
  by_contra hl
  have : Config.liveLimit ≤ r.live := Nat.le_of_not_lt hl
  simp only [this, if_true] at hr
  split at hr
  · cases hr
  · split at hr
    · cases hr
    · split at hr <;> cases hr

section
variable (s : State) (i : Nat) (src : Source) (h : Header) (r : Subscriber) (serial : Nat)

theorem State.admitPage_slots :
    (s.admitPage i src h r serial).slots = (s.allocate i (s.newEntry src h r serial)).slots := by
  unfold State.admitPage State.admissionEvent
  dsimp only
  rw [State.commit_eq, State.takeBlocks_eq]
  rfl

theorem State.admitPage_freeBlocks :
    (s.admitPage i src h r serial).freeBlocks = s.freeBlocks.drop (blocksOf h.len) := by
  unfold State.admitPage State.admissionEvent
  dsimp only
  rw [State.commit_eq, State.takeBlocks_eq]
  rfl

theorem State.slot_admitPage :
    (s.admitPage i src h r serial).slot i =
      { s.slot i with gen := ((s.slot i).gen + 1) % 256, entry := some (s.newEntry src h r serial) } := by
  rw [State.slot, State.admitPage_slots]
  exact State.slot_setSlot ..

theorem State.slot_admitPage_ne {j : Nat} (hj : j ≠ i) :
    (s.admitPage i src h r serial).slot j = s.slot j := by
  rw [State.slot, State.admitPage_slots]
  exact State.slot_setSlot_ne s _ hj
end

/-- R82: the entry of an admission is one of the live entries more. -/
theorem State.liveEntries_admitPage {s : State} {i : Nat} {h : Header} {r : Subscriber} {serial : Nat}
    (src : Source) (hv : s.verdict h = .admitted i r serial) :
    (s.admitPage i src h r serial).liveEntries.Perm (s.newEntry src h r serial :: s.liveEntries) := by
  obtain ⟨-, -, hfree, -⟩ := State.verdict_admitted hv
  obtain ⟨hi, hnone⟩ := State.freeIndex_eq_some hfree
  exact State.liveEntries_allocate hi hnone (by rw [State.slot_admitPage])
    fun j hj => State.slot_admitPage_ne s i src h r serial hj

/-! ### The slots of the table -/

/-- A live entry after a change stands in its slot with the address and serial of the one before, or the
change is its admission. -/
theorem State.SlotsOk.mapped {s t : State} (h : s.SlotsOk)
    (entries : ∀ i, (s.slot i).entry = none → (t.slot i).entry = none) : t.SlotsOk :=
  fun i hi => entries i (h i hi)

theorem State.SlotsOk.congr {s t : State} (h : s.SlotsOk) (slots : t.slots = s.slots) : t.SlotsOk :=
  fun i hi => by rw [State.slot, slots]; exact h i hi

theorem State.SlotsOk.setEntry {s : State} (h : s.SlotsOk) {t : Tag} {e : Entry}
    (he : s.entry t = some e) (e' : Entry) : (s.setEntry t.slot e').SlotsOk :=
  h.mapped fun i hi => by
    have hne : i ≠ t.slot := fun heq => by
      rw [heq, (State.entry_eq_some.1 he).2] at hi; cases hi
    rw [State.slot_setEntry_ne s e' hne]; exact hi

theorem State.SlotsOk.endEntry {s : State} (h : s.SlotsOk) (k : Ending) (t : Tag) :
    (s.endEntry k t).SlotsOk := by
  cases he : s.entry t with
  | none => rw [State.endEntry_of_none k he]; exact h
  | some e =>
    refine h.mapped fun i hi => ?_
    by_cases hne : i = t.slot
    · rw [hne, State.slot_endEntry k he]
    · rw [State.slot_endEntry_ne k he hne]; exact hi

theorem State.SlotsOk.admitPage {s : State} (h : s.SlotsOk) {i : Nat} {hdr : Header} {r : Subscriber}
    {serial : Nat} (src : Source) (hv : s.verdict hdr = .admitted i r serial) :
    (s.admitPage i src hdr r serial).SlotsOk := fun j hj => by
  obtain ⟨-, -, hfree, -⟩ := State.verdict_admitted hv
  have hne : j ≠ i := by have := (State.freeIndex_eq_some hfree).1; omega
  rw [State.slot_admitPage_ne s i src hdr r serial hne]
  exact h j hj

/-- R3: after a power-on reset no entry is live. -/
theorem State.liveEntries_of_no_slots {s : State} (h : s.slots = []) : s.liveEntries = [] := by
  refine List.filterMap_eq_nil_iff.2 fun i _ => ?_
  rw [State.slot, h]
  rfl

theorem State.slotsOk_of_no_slots {s : State} (h : s.slots = []) : s.SlotsOk := fun i _ => by
  rw [State.slot, h]
  rfl

/-! ### The pool (R23) -/

/-- The same blocks, free or in live entries, keep the pool whole. -/
theorem State.PoolOk.of_perm {s t : State} (h : s.PoolOk) (slots : t.SlotsOk)
    (blocks : (t.freeBlocks ++ t.liveEntries.flatMap (fun e => e.blocks)).Perm
      (s.freeBlocks ++ s.liveEntries.flatMap (fun e => e.blocks)))
    (part : t.partition = s.partition) (rebuilding : ∀ p, t.op = some (.rebuild p) → t.liveEntries = []) :
    t.PoolOk where
  slots := slots
  blocks := by rw [part]; exact blocks.trans h.blocks
  rebuilding := rebuilding

theorem State.PoolOk.congr {s t : State} (h : s.PoolOk) (slots : t.slots = s.slots)
    (free : t.freeBlocks = s.freeBlocks) (part : t.partition = s.partition)
    (op : t.op = s.op ∨ t.NothingComing) : t.PoolOk := by
  have live := State.liveEntries_of_slots slots
  refine h.of_perm (h.slots.congr slots) (.of_eq (by rw [free, live])) part fun p hp => ?_
  rcases op with ho | ho
  · rw [live]; exact h.rebuilding p (ho ▸ hp)
  · exact absurd hp (ho.2 p)

/-- R3: after a power-on reset every block is free. -/
theorem State.restarted_poolOk (o : Option Operation) (u : State) : (State.restarted o u).PoolOk :=
  have live : (State.restarted o u).liveEntries = [] := State.liveEntries_of_no_slots rfl
  { slots := State.slotsOk_of_no_slots rfl
    blocks := by
      rw [live, List.flatMap_nil, List.append_nil]
      simp only [State.restarted, State.withRegisters_freeBlocks, State.withRegisters_partition,
        State.reset, poolCapacity]
      exact .refl _
    rebuilding := fun _ _ => live }

/-- R23: every change keeps every block free or in one live entry. -/
theorem Change.keeps_poolOk {s t : State} (hc : Change s t) (h : s.PoolOk) : t.PoolOk := by
  cases hc
  case entry tag e e' he same =>
    obtain ⟨rest, hold, hnew⟩ := State.liveEntries_setEntry h.slots e' he
    refine h.of_perm (h.slots.setEntry he e') (List.Perm.append_left _ ?_) rfl fun p hp => ?_
    · refine (hnew.flatMap_right _).trans (.trans (.of_eq ?_) (hold.flatMap_right _).symm)
      rw [List.flatMap_cons, List.flatMap_cons, same.blocks]
    · rw [h.rebuilding p hp] at hold
      exact absurd hold.symm (List.not_perm_cons_nil)
  case ending k tag =>
    cases he : s.entry tag with
    | none => rw [State.endEntry_of_none k he]; exact h
    | some e =>
      have live := State.liveEntries_endEntry h.slots k he
      refine h.of_perm (h.slots.endEntry k tag) ?_ (by simp) fun p hp => ?_
      · rw [State.endEntry_freeBlocks k he]
        refine .trans ?_ (List.Perm.append_left _ (live.flatMap_right _).symm)
        rw [List.flatMap_cons, ← List.append_assoc]
        exact ((List.reverse_perm e.blocks).append_right _ |>.trans List.perm_append_comm).append_right _
      · rcases s.endEntry_op_cases k tag with ho | ⟨a, ho⟩
        · rw [h.rebuilding p (ho ▸ hp)] at live
          exact absurd live.symm List.not_perm_cons_nil
        · rw [ho] at hp; cases hp
  case admission src hdr i r serial idle _ hv =>
    have live := State.liveEntries_admitPage src hv
    refine h.of_perm (h.slots.admitPage src hv) ?_ (by simp) fun p hp => ?_
    · refine (List.Perm.append_left _ (live.flatMap_right _)).trans ?_
      rw [List.flatMap_cons, ← List.append_assoc, State.admitPage_freeBlocks]
      refine List.Perm.append_right _ (List.perm_append_comm.trans (.of_eq ?_))
      exact List.take_append_drop ..
    · rw [State.admitPage_op, idle] at hp; cases hp
  case begins o _ may =>
    refine h.of_perm (h.slots.congr rfl) (.of_eq rfl) rfl fun p hp => ?_
    cases hp
    exact may.2
  case purges i j _ => exact h.congr rfl rfl rfl (.inr (.of_eq rfl))
  case purged i _ => exact h.congr (by simp) (by simp) (by simp) (.inr s.completeOp_nothingComing)
  case adds r _ => exact h.congr (by simp) (by simp) (by simp) (.inr (State.completeOp_nothingComing _))
  case removes a byEnding _ =>
    exact h.congr (by simp) (by simp) (by simp) (.inr (State.completeOp_nothingComing _))
  case rebuilds p ho =>
    have live : (State.completeOp
        { s with partition := p, freeBlocks := List.range (poolCapacity p) }).liveEntries = [] :=
      (State.liveEntries_of_slots (by simp)).trans (h.rebuilding p ho)
    exact {
      slots := h.slots.congr (by simp)
      blocks := by rw [live]; simp
      rebuilding := fun _ _ => live }
  case restarts o clearing u _ => exact State.restarted_poolOk o u
  all_goals exact h.congr (by simp) (by simp) (by simp) (.inl (by simp))

/-- Settles O59: every change keeps the pool whole. -/
theorem stepsKeepThePoolWhole : Obligations.StepsKeepThePoolWhole :=
  fun _ _ => step_keeps fun _ _ => Change.keeps_poolOk

/-! ### The live counts (R15) -/

/-- Live entries of the same addresses, and records of the same live counts, keep the counts exact. -/
theorem State.LiveOk.mapped {s t : State} (h : s.LiveOk) (slots : t.SlotsOk)
    (live : (t.liveEntries.map (fun e => e.addr)).Perm (s.liveEntries.map (fun e => e.addr)))
    (f : Subscriber → Subscriber) (same : ∀ r, (f r).addr = r.addr ∧ (f r).live = r.live)
    (dir : t.directory = s.directory.map f) (pend : t.pendingRemovals = s.pendingRemovals)
    (op : t.op = s.op ∨ ∃ j, t.op = some (.purge j)) : t.LiveOk where
  slots := slots
  sorted := by
    rw [dir, List.pairwise_map]
    simpa only [(same _).1] using h.sorted
  bears e he := by
    obtain ⟨e', he', ha⟩ := List.mem_map.1 (live.mem_iff.1 (List.mem_map_of_mem he))
    obtain ⟨r, hr, hra⟩ := h.bears e' he'
    exact ⟨f r, by rw [dir]; exact List.mem_map_of_mem hr, by rw [(same r).1, hra, ha]⟩
  counts r hr := by
    rw [dir] at hr
    obtain ⟨q, hq, rfl⟩ := List.mem_map.1 hr
    have count := live.countP_eq (fun a => decide (a = q.addr))
    rw [List.countP_map, List.countP_map] at count
    rw [(same q).1, (same q).2]
    exact ⟨(h.counts q hq).1.trans count.symm, (h.counts q hq).2⟩
  removing a b hab r hr ha := by
    rcases op with ho | ⟨j, ho⟩
    · rw [dir] at hr
      obtain ⟨q, hq, rfl⟩ := List.mem_map.1 hr
      rw [(same q).2]
      exact h.removing a b (ho ▸ hab) q hq ((same q).1 ▸ ha)
    · rw [ho] at hab; cases hab
  pendings a ha r hr hra := by
    rw [dir] at hr
    obtain ⟨q, hq, rfl⟩ := List.mem_map.1 hr
    rw [(same q).2]
    exact h.pendings a (pend ▸ ha) q hq ((same q).1 ▸ hra)
  quiet hn := by
    rcases op with ho | ⟨j, ho⟩
    · rw [pend]; exact h.quiet (ho ▸ hn)
    · rw [ho] at hn; cases hn
  adding r hr := by
    rcases op with ho | ⟨j, ho⟩
    · obtain ⟨zero, new⟩ := h.adding r (ho ▸ hr)
      refine ⟨zero, fun q hq => ?_⟩
      rw [dir] at hq
      obtain ⟨p, hp, rfl⟩ := List.mem_map.1 hq
      rw [(same p).1]
      exact new p hp
    · rw [ho] at hr; cases hr

theorem State.LiveOk.congr {s t : State} (h : s.LiveOk) (slots : t.slots = s.slots)
    (dir : t.directory = s.directory) (pend : t.pendingRemovals = s.pendingRemovals)
    (op : t.op = s.op ∨ ∃ j, t.op = some (.purge j)) : t.LiveOk :=
  h.mapped (h.slots.congr slots) (.of_eq (by rw [State.liveEntries_of_slots slots])) id
    (fun _ => ⟨rfl, rfl⟩) (by rw [dir, List.map_id]) pend op

/-- R16: with the tables in order, the completion of an operation begins the removal of a record without
live entries, or leaves nothing pending. -/
theorem State.liveOk_completeOp {u : State} (slots : u.SlotsOk)
    (sorted : u.directory.Pairwise (fun p q => p.addr < q.addr))
    (bears : ∀ e ∈ u.liveEntries, ∃ r ∈ u.directory, r.addr = e.addr)
    (counts : ∀ r ∈ u.directory, r.live = u.liveEntries.countP (fun e => e.addr = r.addr) ∧ r.live ≤ 8)
    (pendings : ∀ a ∈ u.pendingRemovals, ∀ r ∈ u.directory, r.addr = a → r.live = 0) :
    u.completeOp.LiveOk := by
  have live : u.completeOp.liveEntries = u.liveEntries := State.liveEntries_of_slots (by simp)
  exact {
    slots := slots.congr (by simp)
    sorted := by rw [State.completeOp_directory]; exact sorted
    bears := by rw [State.completeOp_directory, live]; exact bears
    counts := by rw [State.completeOp_directory, live]; exact counts
    removing := fun a b hab => by
      rw [State.completeOp_directory]
      rw [State.completeOp_op, Option.map_eq_some_iff] at hab
      obtain ⟨x, hx, he⟩ := hab
      cases he
      exact pendings a (List.mem_of_mem_head? hx)
    pendings := fun a ha => by
      rw [State.completeOp_directory]
      rw [State.completeOp_pendingRemovals] at ha
      exact pendings a (List.mem_of_mem_tail ha)
    quiet := fun hn => by
      rw [State.completeOp_op, Option.map_eq_none_iff, List.head?_eq_none_iff] at hn
      rw [State.completeOp_pendingRemovals, hn]
      rfl
    adding := fun r hr => absurd hr (u.completeOp_nothingComing.1 r) }

/-- R15: a record after an ending is one of before, its live count lowered where the entry bore its
address. -/
theorem State.mem_directory_endEntry {s : State} {t : Tag} {e : Entry} (k : Ending)
    (he : s.entry t = some e) {q : Subscriber} (hq : q ∈ (s.endEntry k t).directory) :
    ∃ p ∈ s.directory,
      q.addr = p.addr ∧ q.live = (if p.addr = e.addr then p.live - 1 else p.live) := by
  rw [State.endEntry_directory k he] at hq
  obtain ⟨p, hp, rfl⟩ := List.mem_map.1 hq
  refine ⟨p, hp, ?_⟩
  split <;> exact ⟨rfl, rfl⟩

/-- R15: a live count and the number of the entries fall together at an ending. -/
theorem live_after_ending {es rest : List Entry} {e : Entry} (live : es.Perm (e :: rest)) {a n : Nat}
    (h : n = es.countP (fun x => x.addr = a) ∧ n ≤ 8) :
    (if a = e.addr then n - 1 else n) = rest.countP (fun x => x.addr = a) ∧
      (if a = e.addr then n - 1 else n) ≤ 8 := by
  obtain ⟨hc, h8⟩ := h
  rw [live.countP_eq, List.countP_cons] at hc
  simp only [decide_eq_true_eq] at hc
  by_cases ha : e.addr = a
  · rw [if_pos ha] at hc
    rw [if_pos ha.symm]
    omega
  · rw [if_neg ha] at hc
    rw [if_neg (Ne.symm ha)]
    exact ⟨hc, h8⟩

/-- R15, R91: an ending is one live entry less, of its record and of the table. -/
theorem State.LiveOk.endEntry {s : State} (h : s.LiveOk) (k : Ending) (t : Tag) :
    (s.endEntry k t).LiveOk := by
  cases he : s.entry t with
  | none => rw [State.endEntry_of_none k he]; exact h
  | some e =>
    have live := State.liveEntries_endEntry h.slots k he
    obtain ⟨r, hr, hra⟩ := h.bears e (live.mem_iff.2 List.mem_cons_self)
    obtain ⟨hop, hpend, -⟩ := State.endEntry_of_record k he (hra ▸ State.record_of_mem h.sorted hr)
    have dir := State.endEntry_directory k he
    have zero : ∀ q ∈ (s.endEntry k t).directory, (∀ p ∈ s.directory, p.addr = q.addr → p.live = 0) →
        q.live = 0 := by
      intro q hq hz
      obtain ⟨p, hp, ha, hl⟩ := State.mem_directory_endEntry k he hq
      rw [hl, hz p hp ha.symm]
      split <;> rfl
    have last : r.live ≤ 1 → ∀ q ∈ (s.endEntry k t).directory, q.addr = e.addr → q.live = 0 := by
      intro hl q hq ha
      obtain ⟨p, hp, hpa, hpl⟩ := State.mem_directory_endEntry k he hq
      rw [hpa] at ha
      have hpr := eq_of_addr_eq h.sorted hp hr (ha.trans hra.symm)
      rw [hpl, if_pos ha, hpr]
      omega
    exact {
      slots := h.slots.endEntry k t
      sorted := by
        rw [dir, List.pairwise_map]
        refine h.sorted.imp fun hlt => ?_
        split <;> split <;> exact hlt
      bears := fun e' he' => by
        obtain ⟨p, hp, hpa⟩ := h.bears e' (live.mem_iff.2 (List.mem_cons_of_mem _ he'))
        rw [dir]
        refine ⟨_, List.mem_map_of_mem hp, ?_⟩
        split <;> exact hpa
      counts := fun q hq => by
        obtain ⟨p, hp, ha, hl⟩ := State.mem_directory_endEntry k he hq
        rw [hl, ha]
        exact live_after_ending live (h.counts p hp)
      removing := fun a b hab q hq ha => by
        rw [hop] at hab
        split at hab
        · next hb => cases hab; exact last hb.1.2 q hq ha
        · exact zero q hq fun p hp hpq => h.removing a b hab p hp (hpq.trans ha)
      pendings := fun a ha q hq hqa => by
        rw [hpend] at ha
        have old : a ∈ s.pendingRemovals → q.live = 0 := fun hm =>
          zero q hq fun p hp hpq => h.pendings a hm p hp (hpq.trans hqa)
        split at ha
        · next hb =>
          rcases List.mem_append.1 ha with hm | hm
          · exact old hm
          · exact last hb.1.2 q hq (hqa.trans (List.mem_singleton.1 hm))
        · exact old ha
      quiet := fun hn => by
        rw [hop] at hn
        split at hn
        · cases hn
        · rw [hpend, if_neg (fun hb => hb.2.1 hn)]
          exact h.quiet hn
      adding := fun q hq => by
        rw [hop] at hq
        split at hq
        · cases hq
        · obtain ⟨hz, new⟩ := h.adding q hq
          refine ⟨hz, fun p hp => ?_⟩
          obtain ⟨p', hp', ha, -⟩ := State.mem_directory_endEntry k he hp
          rw [ha]
          exact new p' hp' }

/-- R15, R82: an admission is one live entry more, of its record and of the table. -/
theorem State.LiveOk.admitPage {s : State} (h : s.LiveOk) {i : Nat} {hdr : Header} {r : Subscriber}
    {serial : Nat} (src : Source) (idle : s.op = none) (quiet : s.pendingRemovals = [])
    (hv : s.verdict hdr = .admitted i r serial) : (s.admitPage i src hdr r serial).LiveOk := by
  obtain ⟨hrec, href, -, -⟩ := State.verdict_admitted hv
  obtain ⟨hr, hra⟩ := State.record_eq_some hrec
  have live := State.liveEntries_admitPage src hv
  have dir := State.admitPage_directory s i src hdr r serial
  have hop : (s.admitPage i src hdr r serial).op = none := by rw [State.admitPage_op, idle]
  have hpend : (s.admitPage i src hdr r serial).pendingRemovals = [] := by
    rw [State.admitPage_pendingRemovals, quiet]
  have mem : ∀ q ∈ s.directory, ∃ q' ∈ (s.admitPage i src hdr r serial).directory, q'.addr = q.addr := by
    intro q hq
    rw [dir]
    refine ⟨_, List.mem_map_of_mem hq, ?_⟩
    split <;> rfl
  exact {
    slots := h.slots.admitPage src hv
    sorted := by
      rw [dir, List.pairwise_map]
      refine h.sorted.imp fun hlt => ?_
      split <;> split <;> exact hlt
    bears := fun e he => by
      rcases List.mem_cons.1 (live.mem_iff.1 he) with rfl | he'
      · obtain ⟨q', hq', ha⟩ := mem r hr
        exact ⟨q', hq', ha.trans hra⟩
      · obtain ⟨q, hq, hqa⟩ := h.bears e he'
        obtain ⟨q', hq', ha⟩ := mem q hq
        exact ⟨q', hq', ha.trans hqa⟩
    counts := fun q' hq' => by
      rw [dir] at hq'
      obtain ⟨q, hq, rfl⟩ := List.mem_map.1 hq'
      obtain ⟨hc, h8⟩ := h.counts q hq
      rw [live.countP_eq, List.countP_cons]
      simp only [decide_eq_true_eq]
      by_cases ha : q.addr = hdr.addr
      · have hlt := State.live_lt_of_recordRefusal href
        have hqr := eq_of_addr_eq h.sorted hq hr (ha.trans hra.symm)
        subst hqr
        simp only [if_pos ha]
        rw [if_pos (show (s.newEntry src hdr q serial).addr = q.addr from ha.symm)]
        omega
      · simp only [if_neg ha]
        rw [if_neg (show ¬ (s.newEntry src hdr r serial).addr = q.addr from Ne.symm ha)]
        exact ⟨hc, h8⟩
    removing := fun a b hab => by rw [hop] at hab; cases hab
    pendings := fun a ha => by rw [hpend] at ha; cases ha
    quiet := fun _ => hpend
    adding := fun q hq => by rw [hop] at hq; cases hq }

/-- R3: after a power-on reset no entry is live. -/
theorem State.restarted_liveOk {o : Option Operation} (clearing : o = none ∨ o = some .autoclear)
    (u : State) : (State.restarted o u).LiveOk :=
  have live : (State.restarted o u).liveEntries = [] := State.liveEntries_of_no_slots rfl
  { slots := State.slotsOk_of_no_slots rfl
    sorted := List.Pairwise.nil
    bears := fun e he => by rw [live] at he; cases he
    counts := fun _ hr => absurd hr List.not_mem_nil
    removing := fun _ _ _ _ hr => absurd hr List.not_mem_nil
    pendings := fun _ _ _ hr => absurd hr List.not_mem_nil
    quiet := fun _ => rfl
    adding := fun r hr => absurd hr ((State.restarted_nothingComing clearing u).1 r) }

/-- R15: every change keeps the live counts exact. -/
theorem Change.keeps_liveOk {s t : State} (hc : Change s t) (h : s.LiveOk) : t.LiveOk := by
  cases hc
  case entry tag e e' he same =>
    obtain ⟨rest, hold, hnew⟩ := State.liveEntries_setEntry h.slots e' he
    refine h.mapped (h.slots.setEntry he e') ?_ id (fun _ => ⟨rfl, rfl⟩) (List.map_id _).symm rfl (.inl rfl)
    refine (hnew.map _).trans (.trans (.of_eq ?_) (hold.map _).symm)
    rw [List.map_cons, List.map_cons, same.addr]
  case ending k tag => exact h.endEntry k tag
  case admission src hdr i r serial idle quiet hv => exact h.admitPage src idle quiet hv
  case records f same =>
    exact h.mapped (h.slots.congr rfl) (.refl _) f (fun r => ⟨(same r).1, (same r).2.2⟩) rfl rfl (.inl rfl)
  case link a new r _ _ =>
    refine h.mapped (h.slots.congr (by simp)) (.of_eq ?_) _ (fun q => ?_) (State.linked_directory ..)
      (by simp) (.inl (by simp))
    · rw [State.liveEntries_of_slots (s := s) (by simp)]
    · split <;> exact ⟨rfl, rfl⟩
  case begins o idle may =>
    refine { slots := h.slots.congr rfl, sorted := h.sorted, bears := h.bears, counts := h.counts
             removing := fun a b hab q hq ha => ?_, pendings := h.pendings, quiet := fun hn => by cases hn
             adding := fun r hr => ?_ }
    · cases hab
      obtain ⟨r, hr, hz⟩ := may
      obtain ⟨hmem, hra⟩ := State.record_eq_some hr
      rw [eq_of_addr_eq h.sorted hq hmem (ha.trans hra.symm)]
      exact hz
    · cases hr
      obtain ⟨new, -, -, fresh⟩ := may
      exact ⟨fresh, State.record_eq_none.1 new⟩
  case purges i j _ => exact h.congr rfl rfl rfl (.inr ⟨j, rfl⟩)
  case purged i _ => exact State.liveOk_completeOp h.slots h.sorted h.bears h.counts h.pendings
  case adds r ho =>
    obtain ⟨hz, new⟩ := h.adding r ho
    have mem : ∀ q, q ∈ insertRecord r s.directory ↔ q = r ∨ q ∈ s.directory := fun q => by
      rw [(insertRecord_perm r s.directory).mem_iff, List.mem_cons]
    have none_live : s.liveEntries.countP (fun e => e.addr = r.addr) = 0 :=
      List.countP_eq_zero.2 fun e he ha => by
        obtain ⟨q, hq, hqa⟩ := h.bears e he
        exact new q hq (hqa.trans (by simpa using ha))
    have live : (State.raiseRefs { s with directory := insertRecord r s.directory } r.account).liveEntries =
        s.liveEntries := State.liveEntries_of_slots (by simp)
    refine State.liveOk_completeOp (h.slots.congr (by simp)) (insertRecord_sorted h.sorted new)
      (fun e he => ?_) (fun q hq => ?_) (fun a ha q hq hqa => ?_)
    · obtain ⟨q, hq, hqa⟩ := h.bears e (live ▸ he)
      exact ⟨q, (mem q).2 (.inr hq), hqa⟩
    · rw [live]
      rcases (mem q).1 hq with rfl | hq'
      · rw [hz]; exact ⟨none_live.symm, Nat.zero_le _⟩
      · exact h.counts q hq'
    · rcases (mem q).1 hq with rfl | hq'
      · exact hz
      · exact h.pendings a ha q hq' hqa
  case removes a byEnding ho =>
    have live : (s.removeRecord a).liveEntries = s.liveEntries := State.liveEntries_of_slots (by simp)
    have mem : ∀ q, q ∈ (s.removeRecord a).directory ↔ q ∈ s.directory ∧ q.addr ≠ a := fun q => by
      rw [State.removeRecord_directory, List.mem_filter, decide_eq_true_eq]
    refine State.liveOk_completeOp (h.slots.congr (by simp)) ?_ (fun e he => ?_) (fun q hq => ?_)
      (fun b hb q hq hqb => ?_)
    · rw [State.removeRecord_directory]; exact h.sorted.filter _
    · rw [live] at he
      obtain ⟨q, hq, hqa⟩ := h.bears e he
      refine ⟨q, (mem q).2 ⟨hq, fun hqe => ?_⟩, hqa⟩
      have hz := h.removing a byEnding ho q hq hqe
      rw [(h.counts q hq).1, List.countP_eq_zero] at hz
      exact hz e he (by simpa using hqa.symm)
    · rw [live]; exact h.counts q ((mem q).1 hq).1
    · exact h.pendings b (by simpa using hb) q ((mem q).1 hq).1 hqb
  case rebuilds p _ =>
    exact State.liveOk_completeOp (h.slots.congr rfl) h.sorted h.bears h.counts h.pendings
  case restarts o clearing u _ => exact State.restarted_liveOk clearing u
  all_goals exact h.congr (by simp) (by simp) (by simp) (.inl (by simp))

/-! ### The serials (R83) -/

/-- R83: with fewer live entries of a subscriber than serials, the serial picked is on the circle and no
live entry of the subscriber holds it. -/
theorem State.pickSerial_free {s : State} {a : Nat} (next : Nat)
    (h : s.liveEntries.countP (fun e => e.addr = a) < 64) :
    s.pickSerial a next < 64 ∧ s.serialTaken a (s.pickSerial a next) = false := by
  have taken : ∀ v, s.serialTaken a v = true →
      v ∈ (s.liveEntries.filter (fun e => e.addr = a)).map (fun e => e.serial) := by
    intro v hv
    obtain ⟨i, hi, hm⟩ := List.any_eq_true.1 hv
    cases he : (s.slot i).entry with
    | none => rw [he] at hm; cases hm
    | some e =>
      rw [he] at hm
      obtain ⟨ha, hs⟩ : e.addr = a ∧ e.serial = v := by simpa using hm
      refine List.mem_map.2 ⟨e, List.mem_filter.2 ⟨?_, by simpa using ha⟩, hs⟩
      exact List.mem_filterMap.2 ⟨i, hi, he⟩
  obtain ⟨v, hv64, hv⟩ : ∃ v, v < 64 ∧ s.serialTaken a v = false := by
    by_contra! hall
    have sub : Finset.range 64 ⊆
        ((s.liveEntries.filter (fun e => e.addr = a)).map (fun e => e.serial)).toFinset := by
      intro v hv
      exact List.mem_toFinset.2 (taken v (by simpa using hall v (Finset.mem_range.1 hv)))
    have card := (Finset.card_le_card sub).trans (List.toFinset_card_le _)
    rw [Finset.card_range, List.length_map, ← List.countP_eq_length_filter] at card
    omega
  unfold State.pickSerial
  cases hf : ((List.range 64).map (fun k => (next + k) % 64)).find? (fun v => !s.serialTaken a v) with
  | none =>
    have hmem : v ∈ (List.range 64).map (fun k => (next + k) % 64) :=
      List.mem_map.2 ⟨(v + 64 - next % 64) % 64, List.mem_range.2 (Nat.mod_lt _ (by decide)), by
        omega⟩
    have := List.find?_eq_none.1 hf v hmem
    rw [hv] at this
    exact absurd rfl this
  | some w =>
    obtain ⟨k, -, rfl⟩ := List.mem_map.1 (List.mem_of_find?_eq_some hf)
    exact ⟨Nat.mod_lt _ (by decide), by simpa using List.find?_some hf⟩

/-- R83: entries of the slots, addresses and serials of before keep the serials apart. -/
theorem State.SerialsOk.mapped {s t : State} (h : s.SerialsOk)
    (old : ∀ i e', (t.slot i).entry = some e' →
      ∃ e, (s.slot i).entry = some e ∧ e'.addr = e.addr ∧ e'.serial = e.serial) : t.SerialsOk where
  range e' he' := by
    obtain ⟨i, hi, he'⟩ := State.mem_liveEntries.1 he'
    obtain ⟨e, he, -, hs⟩ := old i e' he'
    rw [hs]
    exact h.range e (State.mem_liveEntries.2 ⟨i, hi, he⟩)
  distinct i j e f hij hj he hf ha := by
    obtain ⟨e0, he0, hea, hes⟩ := old i e he
    obtain ⟨f0, hf0, hfa, hfs⟩ := old j f hf
    rw [hes, hfs]
    exact h.distinct i j e0 f0 hij hj he0 hf0 (hea ▸ hfa ▸ ha)

theorem State.SerialsOk.congr {s t : State} (h : s.SerialsOk) (slots : t.slots = s.slots) : t.SerialsOk :=
  h.mapped fun i e he => ⟨e, by rw [State.slot, ← slots]; exact he, rfl, rfl⟩

theorem State.serialTaken_of_entry {s : State} {i : Nat} {e : Entry} (hi : i < 256)
    (he : (s.slot i).entry = some e) : s.serialTaken e.addr e.serial = true := by
  refine List.any_eq_true.2 ⟨i, by simpa [slotIndices] using hi, ?_⟩
  rw [he]
  simp

/-- R83: an admission under the serial picked keeps the serials apart. -/
theorem State.SerialsOk.admitPage {s : State} (h : s.SerialsOk) (hl : s.LiveOk) {i : Nat} {hdr : Header}
    {r : Subscriber} {serial : Nat} (src : Source) (hv : s.verdict hdr = .admitted i r serial) :
    (s.admitPage i src hdr r serial).SerialsOk := by
  obtain ⟨hrec, href, hfree, rfl⟩ := State.verdict_admitted hv
  obtain ⟨hr, hra⟩ := State.record_eq_some hrec
  have few : s.liveEntries.countP (fun e => e.addr = hdr.addr) < 64 := by
    have hlt := State.live_lt_of_recordRefusal href
    rw [(hl.counts r hr).1, hra] at hlt
    omega
  obtain ⟨h64, hnew⟩ := State.pickSerial_free r.nextSerial few
  have apart : ∀ j f, j < 256 → (s.slot j).entry = some f → f.addr = hdr.addr →
      f.serial ≠ s.pickSerial hdr.addr r.nextSerial := by
    intro j f hj hf ha hs
    have := State.serialTaken_of_entry hj hf
    rw [ha, hs, hnew] at this
    cases this
  have live := State.liveEntries_admitPage src hv
  refine { range := fun e he => ?_, distinct := fun j k e f hjk hk he hf ha => ?_ }
  · rcases List.mem_cons.1 (live.mem_iff.1 he) with rfl | he'
    · exact h64
    · exact h.range e he'
  · by_cases hji : j = i
    · subst hji
      rw [State.slot_admitPage] at he
      rw [State.slot_admitPage_ne _ _ _ _ _ _ (Nat.ne_of_gt hjk)] at hf
      cases he
      exact (apart k f hk hf ha.symm).symm
    · rw [State.slot_admitPage_ne _ _ _ _ _ _ hji] at he
      by_cases hki : k = i
      · subst hki
        rw [State.slot_admitPage] at hf
        cases hf
        exact apart j e (by omega) he ha
      · rw [State.slot_admitPage_ne _ _ _ _ _ _ hki] at hf
        exact h.distinct j k e f hjk hk he hf ha

theorem State.restarted_serialsOk (o : Option Operation) (u : State) :
    (State.restarted o u).SerialsOk :=
  { range := fun e he => by
      rw [State.liveEntries_of_no_slots rfl] at he
      cases he
    distinct := fun i j e f _ _ he _ _ => by cases he }

/-- R83: with the live counts exact, every change keeps the serials of a subscriber apart. -/
theorem Change.keeps_serialsOk {s t : State} (hc : Change s t) (hl : s.LiveOk) (h : s.SerialsOk) :
    t.SerialsOk := by
  cases hc
  case entry tag e e' he same =>
    refine h.mapped fun i f hf => ?_
    by_cases hi : i = tag.slot
    · subst hi
      rw [State.slot_setEntry] at hf
      cases hf
      exact ⟨e, (State.entry_eq_some.1 he).2, same.addr, same.serial⟩
    · rw [State.slot_setEntry_ne s e' hi] at hf
      exact ⟨f, hf, rfl, rfl⟩
  case ending k tag =>
    cases he : s.entry tag with
    | none => rw [State.endEntry_of_none k he]; exact h
    | some e =>
      refine h.mapped fun i f hf => ?_
      by_cases hi : i = tag.slot
      · rw [hi, State.slot_endEntry k he] at hf; cases hf
      · rw [State.slot_endEntry_ne k he hi] at hf
        exact ⟨f, hf, rfl, rfl⟩
  case admission src hdr i r serial _ _ hv => exact h.admitPage hl src hv
  case restarts o clearing u _ => exact State.restarted_serialsOk o u
  all_goals exact h.congr (by simp)

/-- Settles O58: every change keeps the live counts exact and, with them, the serials apart. -/
theorem stepsKeepLiveCountsExact : Obligations.StepsKeepLiveCountsExact := by
  refine ⟨fun _ _ => step_keeps fun _ _ => Change.keeps_liveOk, fun s t hl hs h => ?_⟩
  have both : t.LiveOk ∧ t.SerialsOk := step_keeps (P := fun u => u.LiveOk ∧ u.SerialsOk)
    (fun _ _ hc hu => ⟨hc.keeps_liveOk hu.1, hc.keeps_serialsOk hu.1 hu.2⟩) ⟨hl, hs⟩ h
  exact both.2

end Sys2Proof.Machine
end

/-! ## Tables in their canonical form and settings in their ranges (R24, R41, R119, R172) -/

section

namespace Sys2Proof.Machine

/-! ### What a field that takes effect does to the settings -/

theorem State.setting_setSetting_eq (s : State) (a b v : Nat) :
    (s.setSetting a v).setting b = if b = a then v else s.setting b := by
  split
  · next h => subst h; exact State.setting_setSetting ..
  · next h => exact State.setting_setSetting_ne s v h

@[simp] theorem State.recomputePool_settings (s : State) : s.recomputePool.settings = s.settings := by
  rw [State.recomputePool_eq]

@[simp] theorem State.toBootLevel_settings (s : State) : s.toBootLevel.settings = s.settings := by
  simp [State.toBootLevel]

@[simp] theorem State.leaveLevel_settings (s : State) (c : Chan) (l : Nat) :
    (s.leaveLevel c l).settings = s.settings := by
  unfold State.leaveLevel
  split <;> simp

/-- R24: a high watermark below the written low one is raised to it. -/
theorem State.writeLow_eq (s : State) (v : Nat) :
    s.writeLow v =
      State.recomputePool (if s.highMark < v then (s.setSetting lowAddr v).setSetting highAddr v
        else s.setSetting lowAddr v) := by
  have high : (s.setSetting lowAddr v).highMark = s.highMark :=
    State.setting_setSetting_ne s v (by decide)
  rw [State.writeLow, high]

/-- R24 -/
theorem State.writeLow_settings (s : State) (v : Nat) :
    (s.writeLow v).settings =
      (if s.highMark < v then (s.setSetting lowAddr v).setSetting highAddr v
       else s.setSetting lowAddr v).settings := by
  rw [State.writeLow_eq, State.recomputePool_settings]

/-- R24 -/
theorem State.writeHigh_settings (s : State) (v : Nat) :
    (s.writeHigh v).settings = (s.setSetting highAddr (max v s.lowMark)).settings := by
  rw [State.writeHigh, State.recomputePool_settings]

/-- R119 -/
theorem State.writeT1_eq (s : State) (a v : Nat) :
    s.writeT1 a v =
      if s.setting (a + 1) < v then (s.setSetting a v).setSetting (a + 1) v else s.setSetting a v := by
  have next : (s.setSetting a v).setting (a + 1) = s.setting (a + 1) :=
    State.setting_setSetting_ne s v (by omega)
  rw [State.writeT1, next]

/-- R150, R152 -/
theorem State.writeEnable_settings (s : State) (l v : Nat) :
    (s.writeEnable l v).settings = (s.setSetting (enableAddr l) v).settings := by
  unfold State.writeEnable
  dsimp only
  split
  · rfl
  · split
    · split <;> simp
    · simp

/-- R152 -/
theorem State.writeBoot_settings (s : State) (v : Nat) :
    (s.writeBoot v).settings = (s.setSetting bootAddr v).settings := by
  unfold State.writeBoot
  dsimp only
  split <;> simp

/-- R62, R76 -/
theorem State.writeThreshold_settings (s : State) (a v : Nat) :
    (s.writeThreshold a v).settings = (s.setSetting a v).settings := by
  unfold State.writeThreshold
  split <;> rfl

/-- R41: the kinds of field, by what each does when it takes effect. -/
theorem State.writeField_cases (s : State) (f : Field) (v : Nat) :
    (f.first = lowAddr ∧ s.writeField f v = s.writeLow (f.clamp v)) ∨
    (f.first = highAddr ∧ s.writeField f v = s.writeHigh (f.clamp v)) ∨
    ((∃ p, p < 8 ∧ f.first = profileAddr p 1) ∧ s.writeField f v = s.writeT1 f.first (f.clamp v)) ∨
    ((∃ p, p < 8 ∧ f.first = profileAddr p 2) ∧ s.writeField f v = s.writeT2 f.first (f.clamp v)) ∨
    ((∃ l, 1 ≤ l ∧ l ≤ 3 ∧ f.first = enableAddr l ∧ s.writeField f v = s.writeEnable l (f.clamp v))) ∨
    (f.first = bootAddr ∧ s.writeField f v = s.writeBoot (f.clamp v)) ∨
    ((∃ n : LineNo, f.first = 0x180 + 2 * n.val) ∧
      s.writeField f v = s.writeThreshold f.first (f.clamp v)) ∨
    (f.first ≠ lowAddr ∧ f.first ≠ highAddr ∧ (∀ p, p < 8 → f.first ≠ profileAddr p 1) ∧
      (∀ p, p < 8 → f.first ≠ profileAddr p 2) ∧ (f.first < 0x16E ∨ 0x171 < f.first) ∧
      (∀ n : LineNo, f.first ≠ 0x180 + 2 * n.val) ∧
      s.writeField f v = s.setSetting f.first (f.clamp v)) := by
  simp only [State.writeField, lowAddr, highAddr, bootAddr, profileAddr, enableAddr, Bool.and_eq_true,
    decide_eq_true_eq]
  generalize f.first = a
  by_cases h1 : a = 0x34
  · exact .inl ⟨h1, by rw [if_pos h1]⟩
  rw [if_neg h1]
  refine .inr ?_
  by_cases h2 : a = 0x36
  · exact .inl ⟨h2, by rw [if_pos h2]⟩
  rw [if_neg h2]
  refine .inr ?_
  by_cases h3 : (0x40 ≤ a ∧ a < 0xC0) ∧ a % 16 = 1
  · exact .inl ⟨⟨(a - 0x40) / 16, by omega, by omega⟩, by rw [if_pos h3]⟩
  rw [if_neg h3]
  refine .inr ?_
  by_cases h4 : (0x40 ≤ a ∧ a < 0xC0) ∧ a % 16 = 2
  · exact .inl ⟨⟨(a - 0x40) / 16, by omega, by omega⟩, by rw [if_pos h4]⟩
  rw [if_neg h4]
  refine .inr ?_
  by_cases h5 : 0x16E ≤ a ∧ a ≤ 0x170
  · exact .inl ⟨a - 0x16D, by omega, by omega, by omega, by rw [if_pos h5]⟩
  rw [if_neg h5]
  refine .inr ?_
  by_cases h6 : a = 0x171
  · exact .inl ⟨h6, by rw [if_pos h6]⟩
  rw [if_neg h6]
  refine .inr ?_
  by_cases h7 : (0x180 ≤ a ∧ a < 0x188) ∧ a % 2 = 0
  · exact .inl ⟨⟨⟨(a - 0x180) / 2, by omega⟩, by dsimp only; omega⟩, by rw [if_pos h7]⟩
  rw [if_neg h7]
  refine .inr ⟨h1, h2, fun p hp => by omega, fun p hp => by omega, by omega, fun n => ?_, rfl⟩
  have := n.isLt
  omega

/-- What holds of the settings and of every table written from them holds after a field takes effect. -/
theorem State.writeField_settings_keep {P : List (Nat × Nat) → Prop}
    (hP : ∀ (u : State) a v, P u.settings → P (u.setSetting a v).settings) {s : State} (f : Field) (v : Nat)
    (h : P s.settings) : P (s.writeField f v).settings := by
  have one := fun a x => hP s a x h
  rcases s.writeField_cases f v with ⟨-, hw⟩ | ⟨-, hw⟩ | ⟨-, hw⟩ | ⟨-, hw⟩ | ⟨l, -, -, -, hw⟩ | ⟨-, hw⟩ |
    ⟨-, hw⟩ | ⟨-, -, -, -, -, -, hw⟩ <;> rw [hw]
  · rw [State.writeLow_settings]
    split
    · exact hP _ _ _ (one _ _)
    · exact one _ _
  · rw [State.writeHigh_settings]; exact one _ _
  · rw [State.writeT1_eq]
    split
    · exact hP _ _ _ (one _ _)
    · exact one _ _
  · exact one _ _
  · rw [State.writeEnable_settings]; exact one _ _
  · rw [State.writeBoot_settings]; exact one _ _
  · rw [State.writeThreshold_settings]; exact one _ _
  · exact one _ _

/-! ### The canonical form -/

theorem State.Canonical.congr {s t : State} (h : s.Canonical) (text : t.text = s.text)
    (accounts : t.accounts = s.accounts) (settings : t.settings = s.settings) (slots : t.slots = s.slots)
    (wheel : t.wheel = s.wheel) : t.Canonical :=
  ⟨text ▸ h.text, accounts ▸ h.accounts, settings ▸ h.settings, slots ▸ h.slots, wheel ▸ h.wheel⟩

/-- A table of accounts in its canonical form stays so under the writes of `setAcct`. -/
abbrev AcctsWf (t : List (Nat × Account)) : Prop := tblWf (fun _ => unusedAccount) t

theorem AcctsWf.setAcct {s : State} (h : AcctsWf s.accounts) (i : Nat) (a : Account) :
    AcctsWf (s.setAcct i a).accounts := tblWf_tblSet i a h

theorem AcctsWf.commit {s : State} (h : AcctsWf s.accounts) (i : Nat) (a : Account) :
    AcctsWf (s.commit i a).accounts := by
  rw [State.commit_eq]
  exact h.setAcct i _

theorem AcctsWf.endingEvent {s : State} (h : AcctsWf s.accounts) (i : Nat) (k : Ending) (c r : Nat) :
    AcctsWf (s.endingEvent i k c r).accounts := by
  cases k
  case expired | cancelled | aborted => exact h.commit i _
  all_goals exact h.setAcct i _

theorem AcctsWf.moveRefs {s : State} (h : AcctsWf s.accounts) (old new : Nat) :
    AcctsWf (s.moveRefs old new).accounts := by
  unfold State.moveRefs
  split
  · exact h
  · exact AcctsWf.setAcct (h.setAcct _ _) _ _

theorem AcctsWf.removeRecord {s : State} (h : AcctsWf s.accounts) (a : Nat) :
    AcctsWf (s.removeRecord a).accounts := by
  unfold State.removeRecord
  dsimp only
  split
  · exact h.setAcct _ _
  · exact h

theorem State.leaveSlot_wheel_wf {s : State} (h : tblWf (fun _ => ([] : List Tag)) s.wheel) (t : Tag)
    (e : Entry) : tblWf (fun _ => ([] : List Tag)) (s.leaveSlot t e).wheel := by
  unfold State.leaveSlot
  split
  · exact tblWf_tblSet _ _ h
  · exact h

/-- R91: an ending keeps the tables that it writes in their canonical form. -/
theorem State.Canonical.endEntry {s : State} (h : s.Canonical) (k : Ending) (t : Tag) :
    (s.endEntry k t).Canonical := by
  cases he : s.entry t with
  | none => rw [State.endEntry_of_none k he]; exact h
  | some e =>
    exact {
      text := by rw [State.endEntry_text]; exact h.text
      accounts := by rw [State.endEntry_accounts k he]; exact AcctsWf.endingEvent h.accounts _ _ _ _
      settings := by rw [State.endEntry_settings]; exact h.settings
      slots := by rw [State.endEntry_slots k he]; exact tblWf_tblSet _ _ h.slots
      wheel := by
        rw [State.endEntry_wheel k he]
        unfold State.leavePlace
        cases e.state with
        | waiting => exact State.leaveSlot_wheel_wf h.wheel t e
        | listening => exact State.leaveSlot_wheel_wf h.wheel t e
        | assembling => exact h.wheel
        | queued => exact h.wheel
        | onAir => exact h.wheel }

theorem State.restarted_canonical (o : Option Operation) (u : State) : (State.restarted o u).Canonical :=
  have empty : ∀ {α : Type} (d : Nat → α), tblWf d [] := fun _ =>
    ⟨List.Pairwise.nil, fun _ hp => absurd hp List.not_mem_nil⟩
  ⟨List.Pairwise.nil, empty _, empty _, empty _, empty _⟩

/-- Every change keeps the text cells and the tables in their canonical form. -/
theorem Change.keeps_canonical {s t : State} (hc : Change s t) (h : s.Canonical) : t.Canonical := by
  cases hc
  case field f v _ =>
    exact {
      text := by simpa using h.text
      accounts := by simpa using h.accounts
      settings := State.writeField_settings_keep (P := tblWf settingDefault)
        (fun _ a x hu => tblWf_tblSet a x hu) f v h.settings
      slots := by simpa using h.slots
      wheel := by simpa using h.wheel }
  case text a b => exact { h with text := pairwise_tblInsert a b h.text }
  case wheel w ts => exact { h with wheel := tblWf_tblSet w ts h.wheel }
  case entry tag e e' _ _ => exact { h with slots := tblWf_tblSet _ _ h.slots }
  case account i a _ => exact { h with accounts := AcctsWf.setAcct h.accounts i a }
  case ending k tag => exact h.endEntry k tag
  case admission src hdr i r serial _ _ _ =>
    exact {
      text := by simpa using h.text
      accounts := by
        have taken : AcctsWf (s.takeBlocks (blocksOf hdr.len)).accounts := by
          rw [State.takeBlocks_eq]; exact h.accounts
        exact AcctsWf.commit (s := (s.takeBlocks _).updateRecord _ _) taken _ _
      settings := by simpa using h.settings
      slots := by rw [State.admitPage_slots]; exact tblWf_tblSet _ _ h.slots
      wheel := by simpa using h.wheel }
  case link a new r _ _ =>
    exact {
      text := by simpa using h.text
      accounts := AcctsWf.moveRefs h.accounts _ _
      settings := by simpa using h.settings
      slots := by simpa using h.slots
      wheel := by simpa using h.wheel }
  case adds r _ =>
    exact {
      text := by simpa using h.text
      accounts := by rw [State.completeOp_accounts]; exact tblWf_tblSet _ _ h.accounts
      settings := by simpa using h.settings
      slots := by simpa using h.slots
      wheel := by simpa using h.wheel }
  case removes a byEnding _ =>
    exact {
      text := by simpa using h.text
      accounts := by rw [State.completeOp_accounts]; exact AcctsWf.removeRecord h.accounts a
      settings := by simpa using h.settings
      slots := by simpa using h.slots
      wheel := by simpa using h.wheel }
  case restarts o _ u _ => exact State.restarted_canonical o u
  all_goals exact h.congr (by simp) (by simp) (by simp) (by simp) (by simp)

/-! ### The settings in their ranges -/

theorem State.SettingsOk.congr {s t : State} (h : s.SettingsOk) (settings : t.settings = s.settings) :
    t.SettingsOk where
  ranges a f hf := by rw [State.setting_congr settings]; exact h.ranges a f hf
  marks := by
    rw [State.lowMark, State.highMark, State.setting_congr settings, State.setting_congr settings]
    exact h.marks
  tiers p hp := by rw [State.setting_congr settings, State.setting_congr settings]; exact h.tiers p hp

/-- Every setting is within its range. -/
def State.InRanges (s : State) : Prop :=
  ∀ a f, fieldAt a = some f → f.lo ≤ s.setting f.first ∧ s.setting f.first ≤ f.hi

/-- R41: a value within the range of a field, written into it, leaves every setting within its range. -/
theorem State.InRanges.setSetting {s : State} (h : s.InRanges) {f : Field} (hf : fieldAt f.first = some f)
    {v : Nat} (hv : f.lo ≤ v ∧ v ≤ f.hi) : (s.setSetting f.first v).InRanges := by
  intro a g hg
  rw [State.setting_setSetting_eq]
  split
  · next heq =>
    have hgf : some g = some f := by rw [← fieldAt_first hg, heq, hf]
    cases hgf
    exact hv
  · exact h a g hg

/-- R172: no field of the tables has an empty range. -/
theorem lo_le_hi_of_lt : ∀ a, a < 0x284 → ∀ f ∈ fieldAt a, f.lo ≤ f.hi := by
  decide +kernel

theorem Field.clamp_mem {a : Nat} {f : Field} (hf : fieldAt a = some f) (v : Nat) :
    f.lo ≤ f.clamp v ∧ f.clamp v ≤ f.hi := by
  have := lo_le_hi_of_lt a (lt_of_fieldAt hf) f hf
  unfold Field.clamp
  omega

/-- R24: the two watermarks. -/
def lowField : Field := { first := 0x34, width := 2, lo := 0, hi := 2048, dflt := 16 }
def highField : Field := { first := 0x36, width := 2, lo := 0, hi := 2048, dflt := 32 }
/-- R119: the two tier limits of profile `p`. -/
def t1Field (p : Nat) : Field := { first := profileAddr p 1, width := 1, lo := 1, hi := 15, dflt := 2 }
def t2Field (p : Nat) : Field := { first := profileAddr p 2, width := 1, lo := 1, hi := 15, dflt := 3 }

theorem fieldAt_low : fieldAt lowAddr = some lowField := by decide
theorem fieldAt_high : fieldAt highAddr = some highField := by decide
theorem fieldAt_t1 : ∀ p, p < 8 → fieldAt (profileAddr p 1) = some (t1Field p) := by decide
theorem fieldAt_t2 : ∀ p, p < 8 → fieldAt (profileAddr p 2) = some (t2Field p) := by decide

/-- A field that is neither a watermark nor a tier limit, written within its range. -/
theorem State.SettingsOk.setSetting {s : State} (h : s.SettingsOk) {f : Field}
    (hf : fieldAt f.first = some f) {v : Nat} (hv : f.lo ≤ v ∧ v ≤ f.hi) (low : f.first ≠ lowAddr)
    (high : f.first ≠ highAddr) (t1 : ∀ p, p < 8 → f.first ≠ profileAddr p 1)
    (t2 : ∀ p, p < 8 → f.first ≠ profileAddr p 2) : (s.setSetting f.first v).SettingsOk where
  ranges := State.InRanges.setSetting h.ranges hf hv
  marks := by
    rw [State.lowMark, State.highMark, State.setting_setSetting_ne s v low.symm,
      State.setting_setSetting_ne s v high.symm]
    exact h.marks
  tiers p hp := by
    rw [State.setting_setSetting_ne s v (t1 p hp).symm, State.setting_setSetting_ne s v (t2 p hp).symm]
    exact h.tiers p hp

theorem profileAddr_ne_marks {p i : Nat} : profileAddr p i ≠ lowAddr ∧ profileAddr p i ≠ highAddr := by
  simp only [profileAddr, lowAddr, highAddr]
  omega

/-- R24: the watermarks stay in order when the low one is written. -/
theorem State.SettingsOk.writeLow {s : State} (h : s.SettingsOk) {v : Nat} (hv : v ≤ 2048) :
    (s.writeLow v).SettingsOk := by
  have low : (s.setSetting lowAddr v).InRanges :=
    State.InRanges.setSetting h.ranges (f := lowField) fieldAt_low ⟨Nat.zero_le _, hv⟩
  have hlh : highAddr ≠ lowAddr := by decide
  have tier : ∀ p, p < 8 → ∀ u : State, (∀ i, u.setting (profileAddr p i) = s.setting (profileAddr p i)) →
      u.setting (profileAddr p 1) ≤ u.setting (profileAddr p 2) := fun p hp u hu => by
    rw [hu, hu]; exact h.tiers p hp
  have first : ∀ p i, (s.setSetting lowAddr v).setting (profileAddr p i) = s.setting (profileAddr p i) :=
    fun p i => State.setting_setSetting_ne s v profileAddr_ne_marks.1
  refine State.SettingsOk.congr (s := if s.highMark < v then (s.setSetting lowAddr v).setSetting highAddr v
    else s.setSetting lowAddr v) ?_ (s.writeLow_settings v)
  split
  · exact {
      ranges := State.InRanges.setSetting low (f := highField) fieldAt_high ⟨Nat.zero_le _, hv⟩
      marks := by
        rw [State.lowMark, State.highMark, State.setting_setSetting,
          State.setting_setSetting_ne _ v hlh.symm, State.setting_setSetting]
      tiers := fun p hp => tier p hp _ fun i =>
        (State.setting_setSetting_ne _ v profileAddr_ne_marks.2).trans (first p i) }
  · next hlt =>
    exact {
      ranges := low
      marks := by
        rw [State.lowMark, State.highMark, State.setting_setSetting, State.setting_setSetting_ne s v hlh]
        exact Nat.le_of_not_lt hlt
      tiers := fun p hp => tier p hp _ (first p) }

/-- R24: a high watermark is clamped up to the low one. -/
theorem State.SettingsOk.writeHigh {s : State} (h : s.SettingsOk) {v : Nat} (hv : v ≤ 2048) :
    (s.writeHigh v).SettingsOk := by
  have hlow : s.lowMark ≤ 2048 := (h.ranges _ lowField fieldAt_low).2
  refine State.SettingsOk.congr (s := s.setSetting highAddr (max v s.lowMark)) ?_ (s.writeHigh_settings v)
  exact {
    ranges := State.InRanges.setSetting h.ranges (f := highField) fieldAt_high
      ⟨Nat.zero_le _, Nat.max_le.2 ⟨hv, hlow⟩⟩
    marks := by
      rw [State.lowMark, State.highMark, State.setting_setSetting,
        State.setting_setSetting_ne s _ (by decide)]
      exact Nat.le_max_right ..
    tiers := fun p hp => by
      rw [State.setting_setSetting_ne s _ profileAddr_ne_marks.2,
        State.setting_setSetting_ne s _ profileAddr_ne_marks.2]
      exact h.tiers p hp }

/-- R119: a t2 below a written t1 is raised to it. -/
theorem State.SettingsOk.writeT1 {s : State} (h : s.SettingsOk) {p v : Nat} (hp : p < 8)
    (hv : 1 ≤ v ∧ v ≤ 15) : (s.writeT1 (profileAddr p 1) v).SettingsOk := by
  have hnext : profileAddr p 1 + 1 = profileAddr p 2 := rfl
  have one : (s.setSetting (profileAddr p 1) v).InRanges :=
    State.InRanges.setSetting h.ranges (f := t1Field p) (fieldAt_t1 p hp) hv
  have marks1 : ∀ i u, (State.setSetting u (profileAddr p i) v).lowMark = u.lowMark ∧
      (State.setSetting u (profileAddr p i) v).highMark = u.highMark := fun i u =>
    ⟨State.setting_setSetting_ne _ v profileAddr_ne_marks.1.symm,
      State.setting_setSetting_ne _ v profileAddr_ne_marks.2.symm⟩
  rw [State.writeT1_eq, hnext]
  split
  · exact {
      ranges := State.InRanges.setSetting one (f := t2Field p) (fieldAt_t2 p hp) hv
      marks := by rw [(marks1 2 _).1, (marks1 2 _).2, (marks1 1 _).1, (marks1 1 _).2]; exact h.marks
      tiers := fun q hq => by
        have ht := h.tiers q hq
        simp only [State.setting_setSetting_eq, profileAddr] at ht ⊢
        split_ifs <;> omega }
  · next hlt =>
    exact {
      ranges := one
      marks := by rw [(marks1 1 _).1, (marks1 1 _).2]; exact h.marks
      tiers := fun q hq => by
        have ht := h.tiers q hq
        simp only [State.setting_setSetting_eq, profileAddr] at ht hlt ⊢
        by_cases hqp : q = p
        · subst hqp
          rw [if_pos rfl, if_neg (by omega)]
          omega
        · rw [if_neg (by omega), if_neg (by omega)]
          exact ht }

/-- R119: a t2 is clamped up to its t1. -/
theorem State.SettingsOk.writeT2 {s : State} (h : s.SettingsOk) {p v : Nat} (hp : p < 8)
    (hv : 1 ≤ v ∧ v ≤ 15) : (s.writeT2 (profileAddr p 2) v).SettingsOk := by
  have hprev : profileAddr p 2 - 1 = profileAddr p 1 := by simp only [profileAddr]; omega
  have ht1 := (h.ranges _ (t1Field p) (fieldAt_t1 p hp)).2
  rw [State.writeT2, hprev]
  exact {
    ranges := State.InRanges.setSetting h.ranges (f := t2Field p) (fieldAt_t2 p hp)
      ⟨hv.1.trans (Nat.le_max_left ..), Nat.max_le.2 ⟨hv.2, ht1⟩⟩
    marks := by
      rw [State.lowMark, State.highMark, State.setting_setSetting_ne s _ profileAddr_ne_marks.1.symm,
        State.setting_setSetting_ne s _ profileAddr_ne_marks.2.symm]
      exact h.marks
    tiers := fun q hq => by
      have ht := h.tiers q hq
      by_cases hqp : q = p
      · subst hqp
        rw [State.setting_setSetting, State.setting_setSetting_ne s _ (by simp only [profileAddr]; omega)]
        exact Nat.le_max_right ..
      · rw [State.setting_setSetting_ne s _ (by simp only [profileAddr]; omega),
          State.setting_setSetting_ne s _ (by simp only [profileAddr]; omega)]
        exact ht }

/-- R24, R41, R119: a field that takes effect leaves the settings in their ranges and in order. -/
theorem State.SettingsOk.writeField {s : State} (h : s.SettingsOk) {f : Field}
    (hf : fieldAt f.first = some f) (v : Nat) : (s.writeField f v).SettingsOk := by
  have hv := Field.clamp_mem hf v
  have known : ∀ g, fieldAt f.first = some g → f = g := fun g hg => Option.some.inj (hf.symm.trans hg)
  have plain : (f.first ≠ lowAddr ∧ f.first ≠ highAddr ∧ ∀ p i, p < 8 → i < 3 → f.first ≠ profileAddr p i) →
      (s.setSetting f.first (f.clamp v)).SettingsOk := fun ⟨h1, h2, h3⟩ =>
    h.setSetting hf hv h1 h2 (fun p hp => h3 p 1 hp (by decide)) (fun p hp => h3 p 2 hp (by decide))
  have beyond : 0x16D < f.first → (s.setSetting f.first (f.clamp v)).SettingsOk := fun hb =>
    plain ⟨by simp only [lowAddr]; omega, by simp only [highAddr]; omega, fun p i hp hi => by
      simp only [profileAddr]; omega⟩
  rcases s.writeField_cases f v with ⟨ha, hw⟩ | ⟨ha, hw⟩ | ⟨⟨p, hp, ha⟩, hw⟩ | ⟨⟨p, hp, ha⟩, hw⟩ |
    ⟨l, h1, h3, ha, hw⟩ | ⟨ha, hw⟩ | ⟨⟨n, ha⟩, hw⟩ | ⟨h1, h2, h3, h4, -, -, hw⟩ <;> rw [hw]
  · rw [known lowField (ha ▸ fieldAt_low)] at hv ⊢
    exact h.writeLow hv.2
  · rw [known highField (ha ▸ fieldAt_high)] at hv ⊢
    exact h.writeHigh hv.2
  · rw [known (t1Field p) (ha ▸ fieldAt_t1 p hp)] at hv ⊢
    exact h.writeT1 hp hv
  · rw [known (t2Field p) (ha ▸ fieldAt_t2 p hp)] at hv ⊢
    exact h.writeT2 hp hv
  · exact (beyond (by rw [ha, enableAddr]; omega)).congr (by rw [State.writeEnable_settings, ha])
  · exact (beyond (by rw [ha, bootAddr]; omega)).congr (by rw [State.writeBoot_settings, ha])
  · exact (beyond (by omega)).congr (by rw [State.writeThreshold_settings])
  · exact h.setSetting hf hv h1 h2 h3 h4

theorem defaults_in_range :
    ∀ a, a < 0x284 → ∀ f ∈ fieldAt a, f.lo ≤ settingDefault f.first ∧ settingDefault f.first ≤ f.hi := by
  decide +kernel

theorem State.restarted_settingsOk (o : Option Operation) (u : State) : (State.restarted o u).SettingsOk where
  ranges a f hf := defaults_in_range a (lt_of_fieldAt hf) f hf
  marks := by change settingDefault lowAddr ≤ settingDefault highAddr; decide
  tiers p hp := by
    change settingDefault (profileAddr p 1) ≤ settingDefault (profileAddr p 2)
    rw [settingDefault, settingDefault, fieldAt_t1 p hp, fieldAt_t2 p hp]
    exact (by decide : (2 : Nat) ≤ 3)

/-- Every change keeps the settings in their ranges. -/
theorem Change.keeps_settingsOk {s t : State} (hc : Change s t) (h : s.SettingsOk) : t.SettingsOk := by
  cases hc
  case field f v hf => exact h.writeField hf v
  case restarts o _ u _ => exact State.restarted_settingsOk o u
  all_goals exact h.congr (by simp)

end Sys2Proof.Machine
end

/-! ## The monitor, the lines, the channels and the port under every change (R58 to R62, R121 to R124,
R145 to R152, R160 to R166) -/

section

namespace Sys2Proof.Machine

/-! ### Both channels moved (R147, R150, R152) -/

/-- R147: each channel moved to the level that `g` gives for it. -/
def State.moveLevels (s : State) (g : Chan → Nat) : State := (s.moveLevel .A (g .A)).moveLevel .B (g .B)

theorem Monitor.movedTo_self {m : Monitor} {l : Nat} (h : m.level = l) : m.movedTo l = m := if_pos h

theorem Monitor.movedTo_eq_iff {m : Monitor} {l : Nat} : m.movedTo l = m ↔ m.level = l :=
  ⟨fun h => by rw [← h, Monitor.movedTo_level], Monitor.movedTo_self⟩

theorem State.moveLevel_self {s : State} {c : Chan} {l : Nat} (h : (s.mon c).level = l) :
    s.moveLevel c l = s := if_pos h

theorem State.moveLevels_self (s : State) : s.moveLevels (fun c => (s.mon c).level) = s := by
  rw [State.moveLevels, State.moveLevel_self (c := .A) rfl, State.moveLevel_self rfl]

@[simp] theorem State.mon_moveLevels (s : State) (g : Chan → Nat) (c : Chan) :
    (s.moveLevels g).mon c = (s.mon c).movedTo (g c) := by
  unfold State.moveLevels
  cases c with
  | A => rw [State.mon_moveLevel_ne _ _ (by decide), State.mon_moveLevel]
  | B => rw [State.mon_moveLevel, State.mon_moveLevel_ne _ _ (by decide)]

theorem State.mons_ext {s t : State} (h : ∀ c, t.mon c = s.mon c) : t.mons = s.mons :=
  congrArg₂ Duo.mk (h .A) (h .B)

theorem State.moveLevel_port_causes (s : State) (c : Chan) (l : Nat) :
    (s.moveLevel c l).port.causes =
      if (s.mon c).level = l then s.port.causes else s.port.causes ||| 0x01 := by
  rw [State.moveLevel_frame]

/-- R147: the moves raise LEVEL_MOVE exactly when a channel's level changes. -/
theorem State.moveLevels_frame (s : State) (g : Chan → Nat) :
    s.moveLevels g =
      { s with
        mons := (s.moveLevels g).mons
        port := { s.port with
          causes := if (s.moveLevels g).mons = s.mons then s.port.causes else s.port.causes ||| 0x01 } } := by
  have same : (s.moveLevels g).mons = s.mons ↔ (s.mon .A).level = g .A ∧ (s.mon .B).level = g .B := by
    constructor
    · intro h
      have mon : ∀ c, (s.mon c).movedTo (g c) = s.mon c := fun c => by
        rw [← State.mon_moveLevels, State.mon, h, State.mon]
      exact ⟨Monitor.movedTo_eq_iff.1 (mon .A), Monitor.movedTo_eq_iff.1 (mon .B)⟩
    · intro ⟨hA, hB⟩
      refine State.mons_ext fun c => ?_
      rw [State.mon_moveLevels]
      cases c
      · exact Monitor.movedTo_self hA
      · exact Monitor.movedTo_self hB
  have second : ((s.moveLevel .A (g .A)).mon .B).level = (s.mon .B).level := by
    rw [State.mon_moveLevel_ne _ _ (by decide)]
  have causes : (s.moveLevels g).port.causes =
      if (s.moveLevels g).mons = s.mons then s.port.causes else s.port.causes ||| 0x01 := by
    simp only [same]
    rw [State.moveLevels, State.moveLevel_port_causes, State.moveLevel_port_causes, second]
    by_cases hA : (s.mon .A).level = g .A <;> by_cases hB : (s.mon .B).level = g .B <;>
      simp [hA, hB, BitVec.or_assoc]
  rw [← causes]
  unfold State.moveLevels State.moveLevel
  split <;> split <;> rfl

section
variable (s : State) (g : Chan → Nat)

@[simp] theorem State.moveLevels_settings : (s.moveLevels g).settings = s.settings := by
  rw [State.moveLevels_frame]
@[simp] theorem State.moveLevels_lines : (s.moveLevels g).lines = s.lines := by
  rw [State.moveLevels_frame]
@[simp] theorem State.moveLevels_monitorOn : (s.moveLevels g).monitorOn = s.monitorOn := by
  rw [State.moveLevels_frame]
end

/-- R147, R152: the levels are in order when each channel is moved to an enabled level, the effective boot
level while the monitor is disabled, whatever the levels were. -/
theorem State.moveLevels_ok {s : State} {g : Chan → Nat} (boot : s.bootLevel ≤ 3)
    (activity : ∀ c, (s.mon c).activity ≤ 4095)
    (counts : ∀ c, (s.mon c).up ≤ 15 ∧ (s.mon c).down ≤ 15 ∧ (s.mon c).residency ≤ 65535)
    (enabled : ∀ c, s.levelEnabled (g c) = true) (level : ∀ c, g c ≤ 3)
    (off : s.monitorOn = false → ∀ c, g c = s.effectiveBoot) : (s.moveLevels g).MonitorOk :=
  have hs := State.moveLevels_settings s g
  { boot := by rw [State.bootLevel, State.setting_congr hs]; exact boot
    enabled := fun c => by
      rw [State.levelEnabled_congr hs, State.mon_moveLevels, Monitor.movedTo_level]; exact enabled c
    level := fun c => by rw [State.mon_moveLevels, Monitor.movedTo_level]; exact level c
    activity := fun c => by rw [State.mon_moveLevels, Monitor.movedTo_activity]; exact activity c
    counts := fun c => by rw [State.mon_moveLevels]; exact Monitor.movedTo_counts _ (counts c)
    off := fun ho c => by
      rw [State.mon_moveLevels, Monitor.movedTo_level, State.effectiveBoot_congr hs]
      exact off (by simpa using ho) c }

theorem State.leaveLevel_eq (s : State) (c : Chan) (l : Nat) :
    s.leaveLevel c l = s.moveLevel c (if (s.mon c).level = l then s.nextLower l else (s.mon c).level) := by
  unfold State.leaveLevel
  split
  · rfl
  · exact (State.moveLevel_self rfl).symm

/-- R150: both channels leave level `l` for the next lower enabled level. -/
theorem State.leaveLevels_eq (s : State) (l : Nat) :
    (s.leaveLevel .A l).leaveLevel .B l =
      s.moveLevels (fun c => if (s.mon c).level = l then s.nextLower l else (s.mon c).level) := by
  rw [State.leaveLevel_eq (s.leaveLevel .A l), State.nextLower_congr (s := s) (by simp),
    State.leaveLevel_eq, State.mon_moveLevel_ne _ _ (by decide)]
  rfl

/-- R150, R152: a level enable written moves the channels that stood at a level now disabled, and while the
monitor is disabled a change of it brings both to the effective boot level. -/
theorem State.writeEnable_eq (s : State) (l v : Nat) :
    s.writeEnable l v =
      let s1 := s.setSetting (enableAddr l) v
      s1.moveLevels (fun c =>
        if s.setting (enableAddr l) = v then (s.mon c).level
        else if s.monitorOn = false then s1.effectiveBoot
        else if v = 0 ∧ (s.mon c).level = l then s1.nextLower l
        else (s.mon c).level) := by
  have stay : ∀ u : State, u = u.moveLevels (fun c => (u.mon c).level) := fun u => u.moveLevels_self.symm
  have on : (s.setSetting (enableAddr l) v).monitorOn = s.monitorOn := rfl
  unfold State.writeEnable
  dsimp only
  by_cases hv : s.setting (enableAddr l) = v
  · simp only [if_pos hv]
    exact stay _
  · simp only [if_neg hv, on]
    cases ho : s.monitorOn with
    | false => rfl
    | true =>
      by_cases h0 : v = 0
      · simp only [h0, true_and, if_true]
        exact State.leaveLevels_eq _ l
      · simp only [h0, false_and, if_true, if_false, Bool.true_eq_false]
        exact stay _

/-- R152: the boot level written moves both channels while the monitor is disabled. -/
theorem State.writeBoot_eq (s : State) (v : Nat) :
    s.writeBoot v =
      let s1 := s.setSetting bootAddr v
      s1.moveLevels (fun c => if s.monitorOn then (s.mon c).level else s1.effectiveBoot) := by
  unfold State.writeBoot
  dsimp only
  cases ho : s.monitorOn with
  | false => simp only [ho, State.setSetting_monitorOn]; rfl
  | true =>
    simp only [ho, State.setSetting_monitorOn, if_true]
    exact (State.moveLevels_self _).symm

/-! ### The monitor -/

/-- A state whose monitor records, enable flag and monitor settings stand as before. -/
theorem State.MonitorOk.alike {s t : State} (h : s.MonitorOk) (hm : t.mons = s.mons)
    (ho : t.monitorOn = s.monitorOn)
    (hs : ∀ a, 0x16E ≤ a → a ≤ 0x171 → t.setting a = s.setting a) : t.MonitorOk := by
  have mon : ∀ c, t.mon c = s.mon c := fun c => by rw [State.mon, State.mon, hm]
  have boot : t.bootLevel = s.bootLevel := hs _ (by decide) (by decide)
  have enabled : ∀ l, l ≤ 3 → t.levelEnabled l = s.levelEnabled l := fun l hl => by
    by_cases h0 : l = 0
    · simp [State.levelEnabled, h0]
    · rw [State.levelEnabled, State.levelEnabled, hs _ (by simp [enableAddr]; omega)
        (by simp [enableAddr]; omega)]
  have lower : ∀ l, t.nextLower l = s.nextLower l := fun l => by
    simp [State.nextLower, List.find?_cons, enabled]
  have effective : t.effectiveBoot = s.effectiveBoot := by
    rw [State.effectiveBoot, State.effectiveBoot, boot, enabled _ h.boot, lower]
  exact {
    boot := boot ▸ h.boot
    enabled := fun c => by rw [mon, enabled _ (h.level c)]; exact h.enabled c
    level := fun c => by rw [mon]; exact h.level c
    activity := fun c => by rw [mon]; exact h.activity c
    counts := fun c => by rw [mon]; exact h.counts c
    off := fun hoff c => by rw [mon, effective]; exact h.off (ho ▸ hoff) c }

/-- A setting written outside the monitor's leaves the monitor in order. -/
theorem State.MonitorOk.setSetting {s : State} (h : s.MonitorOk) {a : Nat} (v : Nat)
    (ha : a < 0x16E ∨ 0x171 < a) : (s.setSetting a v).MonitorOk :=
  h.alike rfl rfl fun b h1 h2 => State.setting_setSetting_ne s v (by omega)

/-- R150, R152: the levels stay in order when a level enable is written. -/
theorem State.MonitorOk.writeEnable {s : State} (h : s.MonitorOk) {l v : Nat} (hl : 1 ≤ l ∧ l ≤ 3)
    (hv : v ≤ 1) : (s.writeEnable l v).MonitorOk := by
  have hboot : (s.setSetting (enableAddr l) v).bootLevel = s.bootLevel :=
    State.setting_setSetting_ne s v (by simp [bootAddr, enableAddr]; omega)
  have boot : (s.setSetting (enableAddr l) v).bootLevel ≤ 3 := hboot ▸ h.boot
  obtain ⟨he, hle⟩ := State.effectiveBoot_enabled boot
  obtain ⟨hn, hnl⟩ := (s.setSetting (enableAddr l) v).nextLower_enabled l
  -- an enable changed to on, or of another level than the channel's, leaves the channel's level enabled
  have keeps : ∀ c, s.setting (enableAddr l) = v ∨ ¬ (v = 0 ∧ (s.mon c).level = l) →
      (s.setSetting (enableAddr l) v).levelEnabled (s.mon c).level = true := by
    intro c hc
    have hold := h.enabled c
    simp only [State.levelEnabled, State.setting_setSetting_eq, Bool.or_eq_true, decide_eq_true_eq]
      at hold ⊢
    split
    · next heq =>
      have hml : (s.mon c).level = l := by simpa [enableAddr] using heq
      rw [hml] at hold hc ⊢
      omega
    · exact hold
  rw [State.writeEnable_eq]
  dsimp only
  refine State.moveLevels_ok boot h.activity h.counts (fun c => ?_) (fun c => ?_) (fun ho c => ?_)
  · split_ifs with h1 h2 h3
    · exact keeps c (.inl h1)
    · exact he
    · exact hn
    · exact keeps c (.inr h3)
  · split_ifs
    · exact h.level c
    · exact hle
    · exact hnl
    · exact h.level c
  · have ho' : s.monitorOn = false := ho
    split_ifs with h1
    · have same : (s.setSetting (enableAddr l) v).MonitorOk := h.alike rfl rfl fun a _ _ => by
        rw [State.setting_setSetting_eq]
        split
        · next heq => rw [heq, h1]
        · rfl
      exact same.off ho' c
    · rfl

/-- R152: the levels stay in order when the boot level is written. -/
theorem State.MonitorOk.writeBoot {s : State} (h : s.MonitorOk) {v : Nat} (hv : v ≤ 3) :
    (s.writeBoot v).MonitorOk := by
  have boot : (s.setSetting bootAddr v).bootLevel ≤ 3 := by
    rw [State.bootLevel, State.setting_setSetting]; exact hv
  obtain ⟨he, hle⟩ := State.effectiveBoot_enabled boot
  have enabled : ∀ c, (s.setSetting bootAddr v).levelEnabled (s.mon c).level = true := fun c => by
    have hold := h.enabled c
    have hl := h.level c
    simp only [State.levelEnabled, Bool.or_eq_true, decide_eq_true_eq] at hold ⊢
    rw [State.setting_setSetting_ne s v (by simp [bootAddr, enableAddr]; omega)]
    exact hold
  rw [State.writeBoot_eq]
  dsimp only
  refine State.moveLevels_ok boot h.activity h.counts (fun c => ?_) (fun c => ?_) (fun ho c => ?_)
  · split
    · exact enabled c
    · exact he
  · split
    · exact h.level c
    · exact hle
  · have ho' : s.monitorOn = false := ho
    simp [ho']

/-- R24: the recomputed hold leaves the monitor. -/
theorem State.MonitorOk.recomputePool {s : State} (h : s.MonitorOk) : s.recomputePool.MonitorOk := by
  rw [State.recomputePool_eq]
  exact h.congr rfl rfl rfl

/-- R172: a level enable is 0 or 1, and the boot level at most 3. -/
theorem enable_hi : ∀ l, l ≤ 3 → 1 ≤ l → ∀ f ∈ fieldAt (enableAddr l), f.hi = 1 := by decide

theorem boot_hi : ∀ f ∈ fieldAt bootAddr, f.hi = 3 := by decide

/-- R150, R152: a field that takes effect leaves each channel at an enabled level. -/
theorem State.MonitorOk.writeField {s : State} (h : s.MonitorOk) {f : Field}
    (hf : fieldAt f.first = some f) (v : Nat) : (s.writeField f v).MonitorOk := by
  have hv := (Field.clamp_mem hf v).2
  rcases s.writeField_cases f v with ⟨-, hw⟩ | ⟨-, hw⟩ | ⟨⟨p, hp, ha⟩, hw⟩ | ⟨⟨p, hp, ha⟩, hw⟩ |
    ⟨l, h1, h3, ha, hw⟩ | ⟨ha, hw⟩ | ⟨⟨n, ha⟩, hw⟩ | ⟨-, -, -, -, hout, -, hw⟩ <;> rw [hw]
  · refine State.MonitorOk.recomputePool ?_
    split
    · exact (h.setSetting _ (by decide)).setSetting _ (by decide)
    · exact h.setSetting _ (by decide)
  · exact (h.setSetting _ (by decide)).recomputePool
  · simp only [profileAddr] at ha
    rw [State.writeT1_eq]
    split
    · exact (h.setSetting _ (by omega)).setSetting _ (by omega)
    · exact h.setSetting _ (by omega)
  · simp only [profileAddr] at ha
    exact h.setSetting _ (by omega)
  · exact h.writeEnable ⟨h1, h3⟩ (hv.trans (enable_hi l h3 h1 f (ha ▸ hf)).le)
  · exact h.writeBoot (hv.trans (boot_hi f (ha ▸ hf)).le)
  · have plain := h.setSetting (a := f.first) (f.clamp v) (by omega)
    unfold State.writeThreshold
    split
    · exact plain.congr rfl rfl rfl
    · exact plain
  · exact h.setSetting _ hout

theorem State.restarted_monitorOk (o : Option Operation) (u : State) : (State.restarted o u).MonitorOk := by
  have mon : ∀ c, State.reset.mon c = freshMonitor := fun c => by cases c <;> rfl
  refine State.MonitorOk.congr (s := State.reset) ?_ rfl rfl rfl
  exact {
    boot := by decide
    enabled := fun c => by rw [mon]; decide
    level := fun c => by rw [mon]; decide
    activity := fun c => by rw [mon]; decide
    counts := fun c => by rw [mon]; decide
    off := fun hoff => by cases hoff }

/-- Every change keeps the monitor in order. -/
theorem Change.keeps_monitorOk {s t : State} (hc : Change s t) (h : s.MonitorOk) : t.MonitorOk := by
  cases hc
  case field f v hf => exact h.writeField hf v
  case monitor on m ok => exact ok h
  case restarts o _ u _ => exact State.restarted_monitorOk o u
  all_goals exact h.congr (by simp) (by simp) (by simp)

end Sys2Proof.Machine
end

/-! ## The lines, the channels, the port and the clock under every change (R58 to R62, R121 to R124, R160 to
R166) -/

section

namespace Sys2Proof.Machine

/-! ### What a field that takes effect leaves of the lines and of the later settings -/

/-- R76: the address of a threshold names its line. -/
theorem State.writeThreshold_eq (s : State) (n : LineNo) (v : Nat) :
    s.writeThreshold (0x180 + 2 * n.val) v = (s.setSetting (0x180 + 2 * n.val) v).refillLine n := by
  have hn : (0x180 + 2 * n.val - 0x180) / 2 = n.val := by omega
  have code : lineOfCode n.val = some n := by simp [lineOfCode]
  rw [State.writeThreshold, hn, code]

/-- R24, R119: a field that takes effect reaches no other setting of 0C0H and above. -/
theorem State.writeField_setting_ne (s : State) (f : Field) (v : Nat) {b : Nat} (hb : b ≠ f.first)
    (hi : 0xC0 ≤ b) : (s.writeField f v).setting b = s.setting b := by
  have other : ∀ (u : State) a x, b ≠ a → (u.setSetting a x).setting b = u.setting b :=
    fun u _ x h => State.setting_setSetting_ne u x h
  rcases s.writeField_cases f v with ⟨ha, hw⟩ | ⟨ha, hw⟩ | ⟨⟨p, hp, ha⟩, hw⟩ | ⟨⟨p, hp, ha⟩, hw⟩ |
    ⟨l, h1, h3, ha, hw⟩ | ⟨ha, hw⟩ | ⟨⟨n, ha⟩, hw⟩ | ⟨-, -, -, -, -, -, hw⟩ <;> rw [hw]
  · rw [State.setting_congr (State.writeLow_settings ..)]
    split
    · rw [other _ _ _ (by simp [highAddr]; omega), other _ _ _ (ha ▸ hb)]
    · exact other _ _ _ (ha ▸ hb)
  · rw [State.setting_congr (State.writeHigh_settings ..), other _ _ _ (ha ▸ hb)]
  · rw [State.writeT1_eq]
    split
    · rw [other _ _ _ (by simp only [profileAddr] at ha; omega), other _ _ _ hb]
    · exact other _ _ _ hb
  · exact other _ _ _ hb
  · rw [State.setting_congr (State.writeEnable_settings ..), other _ _ _ (ha ▸ hb)]
  · rw [State.setting_congr (State.writeBoot_settings ..), other _ _ _ (ha ▸ hb)]
  · rw [State.setting_congr (State.writeThreshold_settings ..), other _ _ _ hb]
  · exact other _ _ _ hb

/-- R62, R76: a field that is no line's threshold leaves every line. -/
theorem State.writeField_lines (s : State) (f : Field) (v : Nat)
    (h : ∀ n : LineNo, f.first ≠ 0x180 + 2 * n.val) : (s.writeField f v).lines = s.lines := by
  rcases s.writeField_cases f v with ⟨-, hw⟩ | ⟨-, hw⟩ | ⟨-, hw⟩ | ⟨-, hw⟩ | ⟨l, -, -, -, hw⟩ | ⟨-, hw⟩ |
    ⟨⟨n, hn⟩, -⟩ | ⟨-, -, -, -, -, -, hw⟩
  · rw [hw, State.writeLow_eq, State.recomputePool_eq]
    dsimp only
    split <;> rfl
  · rw [hw, State.writeHigh, State.recomputePool_eq]; rfl
  · rw [hw, State.writeT1_eq]
    split <;> rfl
  · rw [hw]; rfl
  · rw [hw, State.writeEnable_eq]; exact State.moveLevels_lines ..
  · rw [hw, State.writeBoot_eq]; exact State.moveLevels_lines ..
  · exact absurd hn (h n)
  · rw [hw]; rfl

/-! ### The lines -/

theorem State.LinesOk.congr {s t : State} (h : s.LinesOk) (lines : t.lines = s.lines)
    (thresholds : ∀ n, t.threshold n = s.threshold n) : t.LinesOk where
  lines n := by
    have line : t.line n = s.line n := by rw [State.line, State.line, lines]
    rw [thresholds, line]
    exact h.lines n
  thresholds n := by rw [thresholds]; exact h.thresholds n

theorem State.threshold_congr {s t : State} (h : t.settings = s.settings) (n : LineNo) :
    t.threshold n = s.threshold n := State.setting_congr h _

/-- R172: a threshold is of 8 to 60 bytes. -/
theorem threshold_range : ∀ n : LineNo, ∀ f ∈ fieldAt (0x180 + 2 * n.val), f.lo = 8 ∧ f.hi = 60 := by decide

/-- R62, R76: a threshold written leaves its line's fill hold as the count and the threshold give. -/
theorem State.LinesOk.writeThreshold {s : State} (h : s.LinesOk) (n : LineNo) {v : Nat}
    (hv : 8 ≤ v ∧ v ≤ 60) : (s.writeThreshold (0x180 + 2 * n.val) v).LinesOk := by
  have own : ∀ m, ((s.setSetting (0x180 + 2 * n.val) v).refillLine n).threshold m =
      if m = n then v else s.threshold m := fun m => by
    change (s.setSetting (0x180 + 2 * n.val) v).setting (0x180 + 2 * m.val) = _
    rw [State.setting_setSetting_eq]
    by_cases hm : m = n
    · rw [if_pos (by rw [hm]), if_pos hm]
    · rw [if_neg (fun heq => hm (Fin.ext (by omega))), if_neg hm]
      rfl
  have at_n : (s.setSetting (0x180 + 2 * n.val) v).threshold n = v := State.setting_setSetting ..
  rw [State.writeThreshold_eq]
  constructor
  · intro m
    rw [own, State.refillLine, at_n]
    by_cases hm : m = n
    · subst hm
      have hl := h.lines m
      rw [if_pos rfl, State.line_setLine]
      exact Line.Ok.refill hl.fifo hl.disabled hl.header hl.timer hl.counters
    · rw [if_neg hm, State.line_setLine_ne _ _ hm]
      exact h.lines m
  · intro m
    rw [own]
    split
    · exact hv
    · exact h.thresholds m

/-- R76: a field that takes effect leaves every line as its threshold gives. -/
theorem State.LinesOk.writeField {s : State} (h : s.LinesOk) {f : Field} (hf : fieldAt f.first = some f)
    (v : Nat) : (s.writeField f v).LinesOk := by
  by_cases hn : ∃ n : LineNo, f.first = 0x180 + 2 * n.val
  · obtain ⟨n, hn⟩ := hn
    obtain ⟨hlo, hhi⟩ := threshold_range n f (hn ▸ hf)
    have hv := Field.clamp_mem hf v
    rw [hlo, hhi] at hv
    have hw : s.writeField f v = s.writeThreshold (0x180 + 2 * n.val) (f.clamp v) := by
      rcases s.writeField_cases f v with ⟨ha, -⟩ | ⟨ha, -⟩ | ⟨⟨p, hp, ha⟩, -⟩ | ⟨⟨p, hp, ha⟩, -⟩ |
        ⟨l, h1, h3, ha, -⟩ | ⟨ha, -⟩ | ⟨⟨m, -⟩, hw⟩ | ⟨-, -, -, -, -, hno, -⟩
      · rw [hn, lowAddr] at ha; omega
      · rw [hn, highAddr] at ha; omega
      · rw [hn, profileAddr] at ha; omega
      · rw [hn, profileAddr] at ha; omega
      · rw [hn, enableAddr] at ha; omega
      · rw [hn, bootAddr] at ha; omega
      · rw [hw, hn]
      · exact absurd hn (hno n)
    rw [hw]
    exact h.writeThreshold n hv
  · have hn' : ∀ n : LineNo, f.first ≠ 0x180 + 2 * n.val := fun n heq => hn ⟨n, heq⟩
    exact h.congr (s.writeField_lines f v hn') fun n =>
      s.writeField_setting_ne f v (hn' n).symm (by omega)

theorem State.restarted_linesOk (o : Option Operation) (u : State) : (State.restarted o u).LinesOk := by
  refine State.LinesOk.congr (s := State.reset) ?_ rfl fun n => rfl
  have line : ∀ n, State.reset.line n = freshLine := fun n => by fin_cases n <;> rfl
  have threshold : ∀ n, State.reset.threshold n = 48 := by decide
  refine ⟨fun n => ?_, fun n => by rw [threshold]; decide⟩
  rw [line, threshold]
  exact ⟨by decide, fun _ => rfl, by decide, by decide, by decide, by decide, by decide⟩

/-- Every change keeps the lines in order. -/
theorem Change.keeps_linesOk {s t : State} (hc : Change s t) (h : s.LinesOk) : t.LinesOk := by
  cases hc
  case field f v hf => exact h.writeField hf v
  case lines q ok => exact ⟨ok h, h.thresholds⟩
  case ending k tag =>
    refine ⟨fun n => ?_, fun n => by rw [State.endEntry_threshold]; exact h.thresholds n⟩
    obtain ⟨b, hb⟩ := s.line_endEntry k tag n
    rw [State.endEntry_threshold, hb]
    exact (h.lines n).rebind b
  case restarts o _ u _ => exact State.restarted_linesOk o u
  all_goals exact h.congr (by simp) (State.threshold_congr (by simp))

/-! ### The channels -/

theorem State.ChannelsOk.congr {s t : State} (h : s.ChannelsOk) (chans : t.chans = s.chans) :
    t.ChannelsOk := fun c => by
  rw [State.chan, chans]
  exact h c

/-- R123: an entry that leaves its band leaves the channel in order. -/
theorem Channel.Ok.sublist {ch : Channel} (h : ch.Ok) {us ns : List Tag} (hu : us.Sublist ch.urgent)
    (hn : ns.Sublist ch.normal) : Channel.Ok { ch with urgent := us, normal := ns } where
  outstanding := h.outstanding
  queue := (Nat.add_le_add hu.length_le hn.length_le).trans h.queue
  closed hcl := by
    obtain ⟨hu0, hn0⟩ := h.closed hcl
    exact ⟨List.sublist_nil.1 (hu0 ▸ hu), List.sublist_nil.1 (hn0 ▸ hn)⟩
  drained := h.drained
  stray := h.stray

theorem State.restarted_channelsOk (o : Option Operation) (u : State) : (State.restarted o u).ChannelsOk := by
  intro c
  have chan : (State.restarted o u).chan c = freshChannel := by cases c <;> rfl
  rw [chan]
  exact ⟨by decide, by decide, by decide, by decide, by decide⟩

/-- Every change keeps the channels in order. -/
theorem Change.keeps_channelsOk {s t : State} (hc : Change s t) (h : s.ChannelsOk) : t.ChannelsOk := by
  cases hc
  case channel c v ok =>
    intro k
    by_cases hk : k = c
    · subst hk
      rw [State.chan_setChan]
      exact ok (h k)
    · rw [State.chan_setChan_ne s v hk]
      exact h k
  case ending k tag =>
    intro c
    obtain ⟨us, ns, hu, hn, hch⟩ := s.chan_endEntry k tag c
    rw [hch]
    exact (h c).sublist hu hn
  case restarts o _ u _ => exact State.restarted_channelsOk o u
  all_goals exact h.congr (by simp)

/-! ### The port and the clock -/

/-- The registers of the port stand as before but for notice causes raised. -/
def State.Notices (s t : State) : Prop :=
  ∃ m : BitVec 8, m.getLsbD 7 = false ∧ t.port = { s.port with causes := s.port.causes ||| m }

theorem State.Notices.of_port {s t : State} (h : t.port = s.port) : s.Notices t :=
  ⟨0, rfl, by simp [h]⟩

theorem State.Notices.raised {s t : State} {m : BitVec 8} (hm : m.getLsbD 7 = false)
    (h : t.port = { s.port with causes := s.port.causes ||| m }) : s.Notices t := ⟨m, hm, h⟩

theorem State.Notices.trans {s t u : State} (h : s.Notices t) (h' : t.Notices u) : s.Notices u := by
  obtain ⟨m, hm, ht⟩ := h
  obtain ⟨m', hm', hu⟩ := h'
  exact ⟨m ||| m', by rw [BitVec.getLsbD_or, hm, hm']; rfl, by rw [hu, ht, BitVec.or_assoc]⟩

theorem State.Notices.ok {s t : State} (h : s.Notices t) (hp : s.port.Ok) : t.port.Ok := by
  obtain ⟨m, hm, ht⟩ := h
  rw [ht]
  exact { hp with causes := by rw [BitVec.getLsbD_or, hp.causes, hm]; rfl }

theorem State.recomputePool_notices (s : State) : s.Notices s.recomputePool := by
  rw [State.recomputePool_eq]
  dsimp only
  split
  · exact ⟨0x04, rfl, rfl⟩
  · exact .of_port rfl

theorem State.moveLevels_notices (s : State) (g : Chan → Nat) : s.Notices (s.moveLevels g) := by
  rw [State.moveLevels_frame]
  dsimp only
  split
  · exact .of_port rfl
  · exact ⟨0x01, rfl, rfl⟩

theorem State.commit_notices (s : State) (i : Nat) (a : Account) : s.Notices (s.commit i a) := by
  rw [State.commit_eq]
  dsimp only
  split
  · exact ⟨0x02, rfl, rfl⟩
  · exact .of_port rfl

theorem State.writeField_notices (s : State) (f : Field) (v : Nat) : s.Notices (s.writeField f v) := by
  rcases s.writeField_cases f v with ⟨-, hw⟩ | ⟨-, hw⟩ | ⟨-, hw⟩ | ⟨-, hw⟩ | ⟨l, -, -, -, hw⟩ | ⟨-, hw⟩ |
    ⟨⟨n, hn⟩, hw⟩ | ⟨-, -, -, -, -, -, hw⟩ <;> rw [hw]
  · rw [State.writeLow_eq]
    refine State.Notices.trans (.of_port ?_) (State.recomputePool_notices _)
    split <;> rfl
  · exact State.Notices.trans (.of_port rfl) (State.recomputePool_notices _)
  · rw [State.writeT1_eq]
    split <;> exact .of_port rfl
  · exact .of_port rfl
  · rw [State.writeEnable_eq]
    exact State.Notices.trans (.of_port rfl) (State.moveLevels_notices _ _)
  · rw [State.writeBoot_eq]
    exact State.Notices.trans (.of_port rfl) (State.moveLevels_notices _ _)
  · rw [hn, State.writeThreshold_eq]
    exact .of_port rfl
  · exact .of_port rfl

theorem State.admitPage_notices (s : State) (i : Nat) (src : Source) (h : Header) (r : Subscriber)
    (serial : Nat) : s.Notices (s.admitPage i src h r serial) := by
  have taken : s.Notices (s.takeBlocks (blocksOf h.len)) :=
    State.Notices.trans (.of_port rfl)
      (State.recomputePool_notices { s with freeBlocks := s.freeBlocks.drop (blocksOf h.len) })
  exact taken.trans (State.Notices.trans (.of_port rfl) (State.commit_notices _ _ _))

theorem State.completeOp_notices (s : State) : s.Notices s.completeOp := by
  rw [State.completeOp_eq]
  exact ⟨0x40, rfl, rfl⟩

/-- Every change keeps the port's registers in their ranges. -/
theorem Change.keeps_port {s t : State} (hc : Change s t) (h : s.port.Ok) : t.port.Ok := by
  cases hc
  case registers u port => exact port h
  case restarts o _ u port => exact port h
  case ending k tag => exact State.Notices.ok (s.endEntry_port k tag) h
  case admission src hdr i r serial _ _ _ => exact (s.admitPage_notices i src hdr r serial).ok h
  case field f v hf => exact (s.writeField_notices f v).ok h
  case purged i _ => exact s.completeOp_notices.ok h
  case adds r _ => exact State.Notices.ok (.trans (.of_port rfl) (State.completeOp_notices _)) h
  case removes a byEnding _ =>
    have same : s.Notices (s.removeRecord a) := .of_port (by rw [State.removeRecord_frame])
    exact State.Notices.ok (same.trans (State.completeOp_notices _)) h
  case rebuilds p _ => exact State.Notices.ok (.trans (.of_port rfl) (State.completeOp_notices _)) h
  case link a new r _ _ => rw [State.linked_frame]; exact h
  all_goals exact h

theorem State.ClockOk.congr {s t : State} (h : s.ClockOk) (time : t.time = s.time) (head : t.head = s.head)
    (pointer : t.tablePtr = s.tablePtr) (sweep : t.settleCursor = s.settleCursor) : t.ClockOk :=
  ⟨time ▸ h.time, head ▸ h.head, pointer ▸ h.pointer, sweep ▸ h.sweep⟩

/-- Every change keeps the clock and the cursors in their ranges. -/
theorem Change.keeps_clockOk {s t : State} (hc : Change s t) (h : s.ClockOk) : t.ClockOk := by
  cases hc
  case clock time head pointer sweep ok =>
    obtain ⟨ht, hh, hp, hs⟩ := ok h
    exact ⟨ht, hh, hp, hs⟩
  case restarts =>
    exact ⟨Nat.zero_le _, Nat.zero_lt_succ _, Nat.zero_lt_succ _, Nat.zero_le _⟩
  all_goals exact h.congr (by simp) (by simp) (by simp) (by simp)

theorem Change.keeps_portOk {s t : State} (hc : Change s t) (h : s.PortOk) : t.PortOk := by
  rw [State.portOk_iff] at h ⊢
  exact ⟨hc.keeps_port h.1, hc.keeps_clockOk h.2⟩

/-- Settles O54: every change of which a step is made keeps each of them. -/
theorem stepsKeepRangesAndForms : Obligations.StepsKeepRangesAndForms := by
  refine ⟨?_, ⟨?_, ?_⟩, ?_, ?_, ?_⟩
  · exact fun _ _ => step_keeps fun _ _ hc => hc.keeps_canonical
  · exact fun _ _ => step_keeps fun _ _ hc => hc.keeps_settingsOk
  · exact fun _ _ => step_keeps fun _ _ hc => hc.keeps_monitorOk
  · exact fun _ _ => step_keeps fun _ _ hc => hc.keeps_linesOk
  · exact fun _ _ => step_keeps fun _ _ hc => hc.keeps_channelsOk
  · exact fun _ _ => step_keeps fun _ _ hc => hc.keeps_portOk

end Sys2Proof.Machine
end

/-! ## The state right after reset -/

section

namespace Sys2Proof.Machine

/-- R85: right after reset no slot holds an entry. -/
theorem State.reset_entry (t : Tag) : State.reset.entry t = none := by
  unfold State.entry
  split <;> rfl

theorem State.reset_line (n : LineNo) : State.reset.line n = freshLine := by fin_cases n <;> rfl

theorem State.reset_chan (c : Chan) : State.reset.chan c = freshChannel := by cases c <;> rfl

theorem State.reset_liveEntries : State.reset.liveEntries = [] :=
  List.filterMap_eq_nil_iff.2 fun _ _ => rfl

/-- R34: right after reset nothing is held. -/
theorem State.reset_heldOk : State.reset.HeldOk where
  slots _ _ := rfl
  charges e he := by rw [State.reset_liveEntries] at he; cases he
  held i := by rw [State.reset_liveEntries]; rfl

/-- R88: right after reset every place is empty. -/
theorem State.reset_placed : State.reset.EntriesPlaced :=
  have none_live : ∀ {P : Prop} {t e}, State.reset.entry t = some e → P := fun h => by
    rw [State.reset_entry] at h; cases h
  { slots := fun _ _ => rfl
    assembling := fun _ _ h => none_live h
    wheel := fun _ _ h => none_live h
    queued := fun _ _ h => none_live h
    onAir := fun _ _ h => none_live h
    lines := fun n t h => by rw [State.reset_line] at h; cases h
    frame := fun _ _ _ h => by cases h
    wheelLists := fun w => ⟨List.nodup_nil, fun t h => absurd h List.not_mem_nil⟩
    bands := fun c p => by
      have empty : (State.reset.chan c).band p = [] := by rw [State.reset_chan]; cases p <;> rfl
      rw [empty]
      exact ⟨List.nodup_nil, fun t h => absurd h List.not_mem_nil⟩ }

/-- R78, R107: right after reset nothing waits. -/
theorem State.reset_waiters : State.reset.WaitersOk where
  lineRequest n h := by cases h
  portRequest := ⟨fun h => (by cases h), fun ⟨_, h, _⟩ => (by cases h)⟩
  requestOnce _ := Nat.zero_le _
  launch t h := by cases h
  launchOnce _ := Nat.zero_le _
  visits v h := by cases h
  frames f h := by cases h
  quiet _ := rfl

theorem State.withRegisters_idle {s : State} (h : s.op = none) :
    State.withRegisters { s with op := none } s = s := by
  rw [← h]
  rfl

theorem State.restarted_reset : State.restarted none State.reset = State.reset :=
  State.withRegisters_idle (s := State.reset) rfl

/-- Settles O53: the state right after reset is a restarted one, with no entry and no record. -/
theorem resetMeetsTheInvariants : Obligations.ResetMeetsTheInvariants := by
  have port : State.reset.PortOk := State.portOk_iff.2
    ⟨⟨by decide, by decide, by decide, by decide, by decide, fun _ h => (by cases h),
      fun _ h => (by cases h)⟩, ⟨by decide, by decide, by decide, by decide⟩⟩
  have start : ∀ {P : State → Prop}, P (State.restarted none State.reset) → P State.reset := fun h => by
    rw [State.restarted_reset] at h
    exact h
  exact ⟨start (State.restarted_canonical none _), start (State.restarted_directoryOk (.inl rfl) _),
    fun _ => unusedAccount_ok, start (State.restarted_settingsOk none _),
    start (State.restarted_linesOk none _), start (State.restarted_monitorOk none _),
    start (State.restarted_channelsOk none _), port, State.reset_heldOk,
    start (State.restarted_liveOk (.inl rfl) _), start (State.restarted_poolOk none _),
    start (State.restarted_refsOk (.inl rfl) _), start (State.restarted_serialsOk none _),
    State.reset_placed, State.reset_waiters⟩

end Sys2Proof.Machine
end

/-! ## The commands of the subscriber directory (R8 to R14, R18 to R22, R25) -/

section

namespace Sys2Proof.Machine

/-! ### Codes and marks -/

theorem byte_eq_zero_iff {b : Byte} : b = 0 ↔ b.toNat = 0 := by
  rw [BitVec.toNat_eq]
  rfl

theorem byte_eq_one_iff {b : Byte} : b = 1 ↔ b.toNat = 1 := by
  rw [BitVec.toNat_eq]
  rfl

/-- R168: the codes of the two channels. -/
theorem chanOfCode_toNat {b : Byte} (h : b.toNat ≤ 1) :
    chanOfCode b.toNat = some (if b = 0 then .A else .B) := by
  rcases Nat.le_one_iff_eq_zero_or_eq_one.1 h with h0 | h1
  · rw [if_pos (byte_eq_zero_iff.2 h0), h0]; rfl
  · rw [if_neg (fun hb => by rw [byte_eq_zero_iff] at hb; omega), h1]; rfl

theorem chanOfCode_eq_none {v : Nat} (h : 1 < v) : chanOfCode v = none := by
  unfold chanOfCode
  split
  · omega
  · omega
  · rfl

/-- R21: the mark after a host operation. -/
theorem hostMark_eq (m : MarkMode) (b : Bool) :
    hostMark m b = ((b || decide (m = .set)) && decide (m ≠ .clear)) := by
  cases m <;> simp [hostMark]

/-- R21: a host operation changes the one record at `a`, and its mark by the mark mode. -/
theorem State.hostWrite_eq (s : State) (a : Nat) (f : Subscriber → Subscriber)
    (hf : ∀ q, (f q).mark = q.mark) :
    s.hostWrite a f =
      { s with
        directory := s.directory.map (fun q =>
          if q.addr = a then
            { f q with mark := (q.mark || decide (s.markMode = .set)) && decide (s.markMode ≠ .clear) }
          else q) } := by
  simp only [State.hostWrite, State.updateRecord, Subscriber.hostMarked, hostMark_eq, hf]

/-! ### ADD SUBSCRIBER -/

/-- R9, check 2. -/
theorem addArgsOk_iff {k p h z o : Byte} {d : Latch} :
    addArgsOk { cmd := .addSubscriber, args := [k, p, h, z] ++ [o], misq := false, desig := d,
                outcome := .none } = true ↔
      k.toNat ≤ 7 ∧ p.toNat ≤ 7 ∧ h.toNat ≤ 1 ∧ z.toNat ≤ 15 ∧ o.toNat ≤ 1 := by
  simp [addArgsOk, Frame.arg, Frame.byte, and_assoc]

/-- R9: the checks of ADD SUBSCRIBER in their order. -/
theorem takeAddSubscriber_eq (f : Frame) (s : State) :
    takeAddSubscriber f s =
      if s.op ≠ none then s.answer .state []
      else if ¬ addArgsOk f = true then s.answer .range []
      else if ∃ r ∈ s.directory, r.addr = f.sub then s.answer .duplicate []
      else if dirCapacity s.partition ≤ s.directory.length then s.answer .full []
      else if (s.acct f.acct).state = .unused then s.answer .referenced []
      else (s.answer .ok []).beginOp
        (.addition (newRecord f (if f.byte 2 = 0 then .A else .B) s.markMode)) := by
  have busy : s.busy = true ↔ s.op ≠ none := Option.isSome_iff_ne_none
  unfold takeAddSubscriber
  simp only [busy, State.isSome_record]
  by_cases hargs : addArgsOk f = true
  · have hhome : f.arg 2 ≤ 1 := by
      simp only [addArgsOk, Bool.and_eq_true, decide_eq_true_eq] at hargs
      omega
    simp only [hargs, chanOfCode_toNat hhome, not_true_eq_false, if_false, Frame.arg]
  · simp only [Bool.not_eq_true] at hargs
    simp only [hargs, Bool.false_eq_true, not_false_eq_true, if_true]

/-- Settles O12: the checks of ADD SUBSCRIBER, on the frame that the last byte completes. -/
theorem addSubscriberChecks : Obligations.AddSubscriberChecks := by
  intro s k p h z o a i harr
  change Host.Outcome.next (portLast .addSubscriber takeAddSubscriber o s) = _
  rw [portLast_taken harr (.inr rfl), takeAddSubscriber_eq]
  simp only [addArgsOk_iff]
  have way : decide (o.toNat = 1) = decide (o = 1) := by simp only [byte_eq_one_iff]
  have mark : hostMark s.markMode false = decide (s.markMode = .set) := by cases s.markMode <;> rfl
  rw [← way, ← mark]
  rfl

/-! ### READ SUBSCRIBER and MEMORY STATUS -/

/-- R8, R20: the result of a read at a command's code. -/
theorem State.answerRecord_code (s : State) (r : Option Subscriber) :
    (s.setPort { s.port.paired with
        latch := noDesig, result := [], readIdx := 0, ready := false }).answerRecord r =
      s.afterCode (match r with
        | some r => 0x00 :: subscriberBytes r
        | none => 0x02 :: noRecordBytes) := by
  cases r <;> rfl

/-- R5, R168: the bytes of a record, each code written out. -/
theorem subscriberBytes_eq (r : Subscriber) :
    subscriberBytes r =
      beBytes 3 r.addr
        ++ [match r.state with
            | .active => 0
            | .suspended => 1
            | .retiring => 2,
          BitVec.ofNat 8 r.cls]
        ++ beBytes 2 r.account
        ++ [BitVec.ofNat 8 r.profile, if r.home = .A then 0 else 1, BitVec.ofNat 8 r.homeZone,
          BitVec.ofNat 8 r.zone]
        ++ (match r.lastHeard with
            | none => [0xFF, 0xFF, 0xFF, 0xFF]
            | some x => beBytes 4 x)
        ++ [if r.oneWay then 1 else 0, BitVec.ofNat 8 r.nextSerial, BitVec.ofNat 8 r.live,
          if r.mark then 1 else 0] := by
  have state : subStateByte r.state = (match r.state with
      | .active => 0
      | .suspended => 1
      | .retiring => 2 : Byte) := by cases r.state <;> rfl
  have home : chanByte r.home = if r.home = .A then 0 else 1 := by cases r.home <;> rfl
  have heard : optBytes 4 r.lastHeard = (match r.lastHeard with
      | none => [0xFF, 0xFF, 0xFF, 0xFF]
      | some x => beBytes 4 x) := by cases r.lastHeard <;> rfl
  rw [← state, ← home, ← heard]
  rfl

/-- Settles O13: both reads leave the state but for the result and the latch. -/
theorem readSubscriberAndMemoryStatus : Obligations.ReadSubscriberAndMemoryStatus := by
  refine ⟨fun s a harr => ?_, subscriberBytes_eq, fun s harr => ?_⟩
  · have taken : exec .readSubscriber s = .next (s.afterCode (match s.record a with
        | some r => 0x00 :: subscriberBytes r
        | none => 0x02 :: noRecordBytes)) := by
      change Host.Outcome.next (portCode .readSubscriber takeReadSubscriber s) = _
      rw [portCode_operative harr]
      exact congrArg Host.Outcome.next (s.answerRecord_code (s.record a))
    exact ⟨fun r hr => by rw [taken, hr], fun hr => by rw [taken, hr]; rfl⟩
  · change Host.Outcome.next (portCode .memoryStatus takeMemoryStatus s) = _
    rw [portCode_operative harr]
    rfl

/-! ### WRITE FIELD -/

/-- R11: the selector and the value are of a writable field. -/
abbrev fieldOk (f v : Nat) : Prop :=
  (f = 0 ∧ v ≤ 7) ∨ (f = 1 ∧ v ≤ 7) ∨ (f = 2 ∧ v ≤ 1) ∨ (f = 3 ∧ v ≤ 15) ∨ (f = 4 ∧ v ≤ 15) ∨
    (f = 5 ∧ v ≤ 1)

/-- R11: the record with the field of selector `f` written to `v`. -/
def Subscriber.withField (q : Subscriber) (f v : Nat) : Subscriber :=
  { q with
    cls := if f = 0 then v else q.cls
    profile := if f = 1 then v else q.profile
    home := if f = 2 then (if v = 0 then .A else .B) else q.home
    homeZone := if f = 3 then v else q.homeZone
    zone := if f = 4 then v else q.zone
    oneWay := if f = 5 then decide (v = 1) else q.oneWay }

theorem fieldWrite_of_ok {f v : Nat} (h : fieldOk f v) :
    fieldWrite f v = some (fun q => q.withField f v) := by
  rcases h with ⟨rfl, hv⟩ | ⟨rfl, hv⟩ | ⟨rfl, hv⟩ | ⟨rfl, hv⟩ | ⟨rfl, hv⟩ | ⟨rfl, hv⟩
  case inr.inr.inl =>
    rcases Nat.le_one_iff_eq_zero_or_eq_one.1 hv with rfl | rfl <;> rfl
  all_goals exact if_pos hv

theorem fieldWrite_of_not_ok {f v : Nat} (h : ¬ fieldOk f v) : fieldWrite f v = none := by
  unfold fieldWrite
  split
  case h_3 => rw [chanOfCode_eq_none (by omega)]; rfl
  case h_7 => rfl
  all_goals exact if_neg (by omega)

/-- R11: the checks of WRITE FIELD in their order. -/
theorem takeWriteField_eq (f : Frame) (s : State) :
    takeWriteField f s =
      if s.op ≠ none then s.answer .state []
      else if ¬ fieldOk (f.arg 0) (f.arg 1) then s.answer .range []
      else match s.record f.sub with
        | none => s.answer .noRecord []
        | some r =>
          if r.state = .retiring then s.answer .state []
          else (s.hostWrite f.sub (fun q => q.withField (f.arg 0) (f.arg 1))).answer .ok [] := by
  have busy : s.busy = true ↔ s.op ≠ none := Option.isSome_iff_ne_none
  unfold takeWriteField
  simp only [busy]
  by_cases hok : fieldOk (f.arg 0) (f.arg 1)
  · rw [fieldWrite_of_ok hok, if_neg (not_not.2 hok)]
    cases s.record f.sub <;> rfl
  · rw [fieldWrite_of_not_ok hok, if_pos hok]

/-- R11, R21: WRITE FIELD, its selector and value as they stand in the frame. -/
theorem writeField_taken {s : State} {f v : Byte} {a : Nat}
    (harr : s.lastArrives .writeField [f] v (subDesig a)) :
    exec (.writeField (.last v)) s = .next
      (if s.op ≠ none then s.afterLast [0x05]
       else if ¬ fieldOk f.toNat v.toNat then s.afterLast [0x07]
       else match s.record a with
        | none => s.afterLast [0x02]
        | some r =>
          if r.state = .retiring then s.afterLast [0x05]
          else (s.afterLast [0x00]).hostWrite a (fun q => q.withField f.toNat v.toNat)) := by
  change Host.Outcome.next (portLast .writeField takeWriteField v s) = _
  rw [portLast_taken harr (.inr rfl), takeWriteField_eq]
  rfl

/-! ### LINK ACCOUNT -/

/-- R162: a command taken at its code finds busy clear. -/
theorem State.not_busy_of_codeArrives {s : State} {c : Cmd} {d : Latch} (h : s.codeArrives c d) (p : Port) :
    ¬ (s.setPort p).busy = true := by
  obtain ⟨-, idle, -, -⟩ := h
  simp [State.busy, State.setPort, idle]

/-- R12: the checks of LINK ACCOUNT in their order. -/
theorem linkAccount_taken {s : State} {a i : Nat} (harr : s.codeArrives .linkAccount (bothDesig a i)) :
    exec .linkAccount s = .next
      (match s.record a with
        | none => s.afterCode [0x02]
        | some r =>
          if r.state = .retiring then s.afterCode [0x05]
          else if (s.acct i).state = .unused then s.afterCode [0x08]
          else (s.afterCode [0x00]).linked a r.account i) := by
  change Host.Outcome.next (portCode .linkAccount takeLinkAccount s) = _
  rw [portCode_operative harr, takeLinkAccount, if_neg (State.not_busy_of_codeArrives harr _)]
  congr 1
  change (match s.record a with | none => _ | some r => _) = _
  cases s.record a with
  | none => rfl
  | some r =>
    change (if r.state = .retiring then _ else if (s.acct i).state = .unused then _ else _) =
      (if r.state = .retiring then _ else if (s.acct i).state = .unused then _ else _)
    split_ifs
    · rfl
    · rfl
    · change State.answer (State.hostWrite (State.moveRefs _ r.account i) a _) _ _ = _
      unfold State.linked State.moveRefs
      split <;> rfl

/-- Settles O14: WRITE FIELD and LINK ACCOUNT, check by check. -/
theorem writeFieldAndLinkAccount : Obligations.WriteFieldAndLinkAccount := by
  refine ⟨fun s f v a harr => ?_, fun s a i harr => ?_⟩
  · have hok : fieldOk f.toNat v.toNat ↔
        ((f = 0 ∧ v.toNat ≤ 7) ∨ (f = 1 ∧ v.toNat ≤ 7) ∨ (f = 2 ∧ v.toNat ≤ 1) ∨
          (f = 3 ∧ v.toNat ≤ 15) ∨ (f = 4 ∧ v.toNat ≤ 15) ∨ (f = 5 ∧ v.toNat ≤ 1)) := by
      simp only [BitVec.toNat_eq]
      rfl
    simp only [writeField_taken harr, hok]
    refine ⟨fun hb => by rw [if_pos hb], fun hb ho => by rw [if_neg (not_not.2 hb), if_pos ho],
      fun hb ho hr => ?_, fun hb ho r hr hret => ?_, fun hb ho r hr hret => ?_⟩
    · rw [if_neg (not_not.2 hb), if_neg (not_not.2 ho), hr]
    · rw [if_neg (not_not.2 hb), if_neg (not_not.2 ho), hr]
      exact congrArg _ (if_pos hret)
    · rw [if_neg (not_not.2 hb), if_neg (not_not.2 ho), hr]
      dsimp only
      rw [if_neg hret, State.hostWrite_eq _ a (fun q => q.withField f.toNat v.toNat) fun _ => rfl]
      simp only [Subscriber.withField, BitVec.toNat_eq]
      rfl
  · rw [linkAccount_taken harr]
    refine ⟨fun hr => by rw [hr], fun r hr hret => by simp only [hr, if_pos hret],
      fun r hr hret hun => by simp only [hr, if_neg hret, if_pos hun], fun r hr hret hun => ?_⟩
    simp only [hr, if_neg hret, if_neg hun]
    refine ⟨_, rfl, ?_, fun j => ?_⟩
    · rw [State.linked_frame]
      simp only [State.linked, State.hostWrite_eq _ a (fun q => { q with account := i }) fun _ => rfl]
      rw [State.moveRefs_frame]
      rfl
    · rw [State.acct_linked, State.acct_moveRefs]
      rfl

end Sys2Proof.Machine
end

/-! ## SUSPEND, RESUME, RETIRE, the directory cursor and the partition (R2, R13, R14, R18 to R22) -/

section

namespace Sys2Proof.Machine

/-! ### SUSPEND, RESUME and RETIRE -/

/-- R6, R21: the record at `a` brought to the state `st` by a host operation. -/
def State.withRecordState (s : State) (a : Nat) (st : SubState) : State :=
  s.hostWrite a (fun q => { q with state := st })

theorem suspend_taken {s : State} {a : Nat} (harr : s.codeArrives .suspend (subDesig a)) :
    exec .suspend s = .next
      (match s.record a with
        | none => s.afterCode [0x02]
        | some r =>
          if r.state = .retiring then s.afterCode [0x05]
          else (s.afterCode [0x00]).withRecordState a .suspended) := by
  change Host.Outcome.next (portCode .suspend takeSuspend s) = _
  rw [portCode_operative harr, takeSuspend, if_neg (State.not_busy_of_codeArrives harr _)]
  rfl

theorem resume_taken {s : State} {a : Nat} (harr : s.codeArrives .resume (subDesig a)) :
    exec .resume s = .next
      (match s.record a with
        | none => s.afterCode [0x02]
        | some _ => (s.afterCode [0x00]).withRecordState a .active) := by
  change Host.Outcome.next (portCode .resume takeResume s) = _
  rw [portCode_operative harr, takeResume, if_neg (State.not_busy_of_codeArrives harr _)]
  rfl

theorem retire_taken {s : State} {a : Nat} (harr : s.codeArrives .retire (subDesig a)) :
    exec .retire s = .next
      (match s.record a with
        | none => s.afterCode [0x02]
        | some r =>
          if r.state = .retiring then s.afterCode [0x05]
          else
            let t := (s.afterCode [0x00, byteOf r.live]).withRecordState a .retiring
            if r.live = 0 then t.beginOp (.removal a false) else t) := by
  change Host.Outcome.next (portCode .retire takeRetire s) = _
  rw [portCode_operative harr, takeRetire, if_neg (State.not_busy_of_codeArrives harr _)]
  rfl

theorem State.withRecordState_eq (s : State) (a : Nat) (st : SubState) :
    s.withRecordState a st =
      { s with
        directory := s.directory.map (fun q =>
          if q.addr = a then
            { q with
              state := st
              mark := (q.mark || decide (s.markMode = .set)) && decide (s.markMode ≠ .clear) }
          else q) } :=
  s.hostWrite_eq a (fun q => { q with state := st }) fun _ => rfl

/-- Settles O15: the three commands, check by check. -/
theorem recordStateCommands : Obligations.RecordStateCommands := by
  intro s a marked
  have hmark : ∀ st bs, (s.afterCode bs).withRecordState a st = marked st (s.afterCode bs) := fun st bs =>
    (s.afterCode bs).withRecordState_eq a st
  refine ⟨fun harr => ?_, fun harr => ?_, fun harr => ?_⟩
  · rw [suspend_taken harr]
    refine ⟨fun hr => by rw [hr], fun r hr hret => by simp only [hr, if_pos hret], fun r hr hret => ?_⟩
    simp only [hr, if_neg hret, hmark]
  · rw [resume_taken harr]
    exact ⟨fun hr => by rw [hr], fun r hr => by simp only [hr, hmark]⟩
  · rw [retire_taken harr]
    refine ⟨fun hr => by rw [hr], fun r hr hret => by simp only [hr, if_pos hret],
      fun r hr hret hl => ?_, fun r hr hret hl => ?_⟩
    · simp only [hr, if_neg hret, if_neg hl.ne', hmark]
      rfl
    · simp only [hr, if_neg hret, hl, hmark]
      rfl

/-! ### The directory cursor -/

/-- The element that a search in an ordered list finds is the only one that lets through and that no other
such element stands before. -/
theorem find?_eq_some_of_first {α : Type} {R : α → α → Prop} {d : List α} (hd : d.Pairwise R) {p : α → Bool}
    {r : α} (hr : r ∈ d) (hp : p r = true) (first : ∀ q ∈ d, p q = true → ¬ R q r) : d.find? p = some r := by
  induction hd with
  | nil => cases hr
  | @cons q rest hq _ ih =>
    by_cases hpq : p q = true
    · rcases List.mem_cons.1 hr with rfl | hr'
      · exact List.find?_cons_of_pos hpq
      · exact absurd (hq r hr') (first q List.mem_cons_self hpq)
    · rcases List.mem_cons.1 hr with rfl | hr'
      · exact absurd hp hpq
      · rw [List.find?_cons_of_neg hpq]
        exact ih hr' fun x hx => first x (List.mem_cons_of_mem q hx)

/-- R20: a record lies ahead of the cursor. -/
def State.ahead (s : State) (q : Subscriber) : Prop :=
  if s.cursorMode = .backward then (q.addr : Int) ≤ s.cursorKey else s.cursorKey ≤ (q.addr : Int)

/-- R20, R22: with the directory in order the cursor finds the nearest record ahead that is let through. -/
theorem State.cursorFind_eq_some {s : State} (hd : s.directory.Pairwise (fun p q => p.addr < q.addr))
    {p : Subscriber → Bool} {r : Subscriber} (hr : r ∈ s.directory) (hp : p r = true) (ha : s.ahead r)
    (nearest : ∀ q ∈ s.directory, p q = true → s.ahead q →
      if s.cursorMode = .backward then q.addr ≤ r.addr else r.addr ≤ q.addr) :
    s.cursorFind p = some r := by
  unfold State.ahead at ha nearest
  unfold State.cursorFind
  cases hm : s.cursorMode with
  | backward =>
    simp only [hm, if_true] at ha nearest
    refine find?_eq_some_of_first (List.pairwise_reverse.2 hd) (List.mem_reverse.2 hr) (by simp [ha, hp]) ?_
    intro q hq hpq
    simp only [Bool.and_eq_true, decide_eq_true_eq] at hpq
    exact Nat.not_lt.2 (nearest q (List.mem_reverse.1 hq) hpq.2 hpq.1)
  | forward | hold =>
    simp only [hm, reduceCtorEq, if_false] at ha nearest
    refine find?_eq_some_of_first hd hr (by simp [ha, hp]) ?_
    intro q hq hpq
    simp only [Bool.and_eq_true, decide_eq_true_eq] at hpq
    exact Nat.not_lt.2 (nearest q hq hpq.2 hpq.1)

theorem State.cursorFind_eq_none {s : State} {p : Subscriber → Bool}
    (h : ∀ q ∈ s.directory, p q = true → ¬ s.ahead q) : s.cursorFind p = none := by
  unfold State.ahead at h
  unfold State.cursorFind
  cases hm : s.cursorMode with
  | backward =>
    simp only [hm, if_true] at h
    refine List.find?_eq_none.2 fun q hq hpq => ?_
    simp only [Bool.and_eq_true, decide_eq_true_eq] at hpq
    exact h q (List.mem_reverse.1 hq) hpq.2 hpq.1
  | forward | hold =>
    simp only [hm, reduceCtorEq, if_false] at h
    refine List.find?_eq_none.2 fun q hq hpq => ?_
    simp only [Bool.and_eq_true, decide_eq_true_eq] at hpq
    exact h q hq hpq.2 hpq.1

/-- R20, R22: what a read of the cursor lets through. -/
def letsThrough (marked : Bool) (q : Subscriber) : Bool := !marked || q.mark

theorem letsThrough_iff {marked : Bool} {q : Subscriber} :
    letsThrough marked q = true ↔ (marked = true → q.mark = true) := by
  cases marked <;> simp [letsThrough]

/-- R20, R22: both reads, by what the cursor finds. -/
theorem cursorRead_taken {s : State} {marked : Bool}
    (harr : s.codeArrives (if marked then .cursorReadMarked else .cursorRead) noDesig) :
    exec (codeRow (if marked then .cursorReadMarked else .cursorRead)) s = .next
      (match s.cursorFind (letsThrough marked) with
        | none => s.afterCode (0x02 :: noRecordBytes)
        | some r =>
          { s.afterCode (0x00 :: subscriberBytes r) with
            cursorKey := nextKey s.cursorMode s.cursorKey r.addr
            directory :=
              if marked then
                s.directory.map (fun q => if q.addr = r.addr then { q with mark := false } else q)
              else s.directory }) := by
  cases marked with
  | false =>
    change Host.Outcome.next (portCode .cursorRead takeCursorRead s) = _
    rw [portCode_operative (c := .cursorRead) harr]
    change Host.Outcome.next (match s.cursorFind (letsThrough false) with | none => _ | some r => _) = _
    cases s.cursorFind (letsThrough false) <;> rfl
  | true =>
    change Host.Outcome.next (portCode .cursorReadMarked takeCursorReadMarked s) = _
    rw [portCode_operative (c := .cursorReadMarked) harr]
    change Host.Outcome.next (match s.cursorFind (letsThrough true) with | none => _ | some r => _) = _
    cases s.cursorFind (letsThrough true) <;> rfl

theorem stepModeOfCode_eq (v : Nat) :
    stepModeOfCode v =
      if 2 < v then none else some (if v = 0 then .forward else if v = 1 then .backward else .hold) := by
  match v with
  | 0 | 1 | 2 => rfl
  | n + 3 => exact (if_pos (by omega)).symm

theorem markModeOfCode_eq (v : Nat) :
    markModeOfCode v =
      if 2 < v then none else some (if v = 0 then .off else if v = 1 then .set else .clear) := by
  match v with
  | 0 | 1 | 2 => rfl
  | n + 3 => exact (if_pos (by omega)).symm

theorem beValue_three (b0 b1 b2 : Byte) :
    beValue [b0, b1, b2] = 65536 * b0.toNat + 256 * b1.toNat + b2.toNat := by
  simp only [beValue, List.foldl_cons, List.foldl_nil]
  omega

/-- R19: CURSOR SET. -/
theorem cursorSet_taken {s : State} {b0 b1 b2 m : Byte}
    (harr : s.lastArrives .cursorSet [b0, b1, b2] m noDesig) :
    exec (.cursorSet (.last m)) s = .next
      (if 4194303 < beValue [b0, b1, b2] ∨ 2 < m.toNat then s.afterLast [0x07]
       else
         { s.afterLast [0x00] with
           cursorKey := beValue [b0, b1, b2]
           cursorMode := if m = 0 then .forward else if m = 1 then .backward else .hold }) := by
  change Host.Outcome.next (portLast .cursorSet takeCursorSet m s) = _
  rw [portLast_taken harr (.inr rfl)]
  congr 1
  change (if 4194303 < beValue [b0, b1, b2] then _ else match stepModeOfCode m.toNat with
    | none => _
    | some _ => _) = _
  rw [stepModeOfCode_eq]
  simp only [byte_eq_zero_iff, byte_eq_one_iff]
  by_cases hk : 4194303 < beValue [b0, b1, b2]
  · rw [if_pos hk, if_pos (.inl hk)]
    rfl
  · by_cases hm : 2 < m.toNat
    · rw [if_neg hk, if_pos hm, if_pos (.inr hm)]
      rfl
    · rw [if_neg hk, if_neg hm, if_neg (not_or.2 ⟨hk, hm⟩)]
      rfl

/-- R21: MARK MODE. -/
theorem markMode_taken {s : State} {m : Byte} (harr : s.lastArrives .markMode [] m noDesig) :
    exec (.markMode (.last m)) s = .next
      (if 2 < m.toNat then s.afterLast [0x07]
       else { s.afterLast [0x00] with
              markMode := if m = 0 then .off else if m = 1 then .set else .clear }) := by
  change Host.Outcome.next (portLast .markMode takeMarkMode m s) = _
  rw [portLast_taken harr (.inr rfl)]
  congr 1
  change (match markModeOfCode m.toNat with | none => _ | some _ => _) = _
  rw [markModeOfCode_eq]
  simp only [byte_eq_zero_iff, byte_eq_one_iff]
  by_cases hm : 2 < m.toNat
  · rw [if_pos hm, if_pos hm]
    rfl
  · rw [if_neg hm, if_neg hm]
    rfl

/-- Settles O16: the cursor's two settings, and its reads by the record that it finds. -/
theorem cursorAndMarks : Obligations.CursorAndMarks := by
  refine ⟨fun s b0 b1 b2 m => ⟨fun harr => ?_, markMode_taken⟩, fun s marked => ?_⟩
  · rw [cursorSet_taken harr, beValue_three]
  intro c ahead hd harr
  refine ⟨?_, ?_⟩
  · intro r hr ha nearest
    have found : s.cursorFind (letsThrough marked) = some r :=
      State.cursorFind_eq_some hd hr (letsThrough_iff.2 ha.1) ha.2 fun q hq hp hq' =>
        nearest q hq ⟨letsThrough_iff.1 hp, hq'⟩
    rw [cursorRead_taken harr, found]
    cases s.cursorMode <;> rfl
  · intro none_ahead
    have missed : s.cursorFind (letsThrough marked) = none :=
      State.cursorFind_eq_none fun q hq hp ha => none_ahead q hq ⟨letsThrough_iff.1 hp, ha⟩
    rw [cursorRead_taken harr, missed]
    rfl

end Sys2Proof.Machine
end

/-! ## The partition, the completions, power-on and the purge (R2, R3, R10, R16 to R18, R100, R101) -/

section

namespace Sys2Proof.Machine

/-! ### PARTITION and the completion of a rebuild -/

/-- R2, R18: the checks of PARTITION. -/
theorem partition_taken {s : State} {p : Byte} (harr : s.lastArrives .partition [] p noDesig) :
    exec (.partition (.last p)) s = .next
      (if 3 < p.toNat then s.afterLast [0x07]
       else if s.liveEntries ≠ [] ∨ 4096 - 512 * p.toNat < s.directory.length ∨ s.op ≠ none then
         s.afterLast [0x05]
       else (s.afterLast [0x00]).beginOp (.rebuild p.toNat)) := by
  have refused : (s.anyLive || decide (dirCapacity p.toNat < s.directory.length) || s.busy) = true ↔
      s.liveEntries ≠ [] ∨ 4096 - 512 * p.toNat < s.directory.length ∨ s.op ≠ none := by
    rw [Bool.or_eq_true, Bool.or_eq_true, decide_eq_true_eq, or_assoc, State.busy,
      Option.isSome_iff_ne_none, ← Bool.not_eq_false, State.anyLive_eq_false]
    rfl
  change Host.Outcome.next (portLast .partition takePartition p s) = _
  rw [portLast_taken harr (.inr rfl)]
  simp only [← refused]
  rfl

/-- R2, R16: the completion of a rebuild. -/
theorem partitionComplete_eq {s : State} {p : Nat} (hop : s.op = some (.rebuild p)) :
    exec .partitionComplete s = .next (State.completeOp
      (State.recomputePool { s with partition := p, freeBlocks := List.range (poolCapacity p) })) := by
  change execPartitionComplete s = _
  rw [execPartitionComplete, hop]

/-- R24, R16: a rebuild raises POOL_HOLD with DONE where the hold goes up. -/
theorem causes_rebuilt (c : BitVec 8) (up : Bool) :
    (if up then c ||| 0x04 else c) ||| 0x40 = c ||| (if up then 0x44 else 0x40) := by
  cases up
  · rfl
  · exact BitVec.or_assoc ..

/-- Settles O17: the checks of PARTITION, and a rebuild complete by the laws of the hold and of DONE. -/
theorem partitionChecksAndRebuild : Obligations.PartitionChecksAndRebuild := by
  refine ⟨fun s p harr => partition_taken harr, fun s p hop => ?_⟩
  intro hold
  have hhold : poolHoldOf (List.range (poolCapacity p)).length s.lowMark s.highMark s.poolHold = hold := by
    rw [List.length_range]
    rfl
  rw [partitionComplete_eq hop, State.completeOp_eq, State.recomputePool_eq, ← causes_rebuilt, ← hhold]
  rfl

/-! ### The completions of an addition and of a removal -/

/-- R10, R16: the completion of an addition. -/
theorem additionComplete_eq {s : State} {r : Subscriber} (hop : s.op = some (.addition r)) :
    exec .additionComplete s = .next
      (State.completeOp ({ s with directory := insertRecord r s.directory }.raiseRefs r.account)) := by
  change execAdditionComplete s = _
  rw [execAdditionComplete, hop]

/-- R16, R17: the completion of a removal. -/
theorem removalComplete_eq {s : State} {a : Nat} {byEnding : Bool}
    (hop : s.op = some (.removal a byEnding)) :
    exec .removalComplete s = .next
      (State.completeOp (if byEnding then (s.removeRecord a).raise .retireDone else s.removeRecord a)) := by
  change execRemovalComplete s = _
  rw [execRemovalComplete, hop]

/-- Settles O18: both completions, by the laws of the insertion, of the reference counts and of DONE. -/
theorem additionAndRemovalComplete : Obligations.AdditionAndRemovalComplete := by
  refine ⟨fun s r hop => ⟨_, additionComplete_eq hop, fun q => ?_, ?_, fun hd new => ?_, fun j => ?_, ?_⟩,
    fun s a byEnding r hop hr => ⟨_, removalComplete_eq hop, fun j => ?_, ?_⟩⟩
  · rw [State.completeOp_directory, ← List.mem_cons]
    exact (insertRecord_perm r s.directory).mem_iff
  · rw [State.completeOp_directory]
    exact (insertRecord_perm r s.directory).length_eq
  · rw [State.completeOp_directory]
    exact insertRecord_sorted hd new
  · rw [State.acct_congr (State.completeOp_accounts _), State.acct_raiseRefs]
    rfl
  · rw [State.completeOp_eq]
    rfl
  · have raised : ∀ u : State, (if byEnding then u.raise .retireDone else u).acct j = u.acct j := fun u => by
      split <;> rfl
    rw [State.acct_congr (State.completeOp_accounts _), raised, State.acct_removeRecord r hr]
  · rw [State.completeOp_eq, State.removeRecord_frame]
    cases byEnding
    · rfl
    · simp only [if_true, State.raise, BitVec.or_assoc]
      rfl

/-! ### Power-on and the autoclear -/

/-- R3: the state that a power-on reset leaves. -/
def State.poweredOn (s : State) : State :=
  { State.reset with op := some .autoclear, lateTicks := s.lateTicks, pending := s.pending }

/-- R3: power-on starts the autoclear. -/
theorem powerOn_eq (s : State) : exec .powerOn s = .next s.poweredOn := rfl

/-- R3: the completion of the autoclear. -/
theorem autoclearComplete_eq {s : State} (hop : s.op = some .autoclear) :
    exec .autoclearComplete s = .next
      { State.reset with
        port := { s.port with causes := 0, enables := 0 }
        ab := ⟨{ freshAbSlot with rx := s.ab.v0.rx }, { freshAbSlot with rx := s.ab.v1.rx },
               { freshAbSlot with rx := s.ab.v2.rx }, { freshAbSlot with rx := s.ab.v3.rx }⟩
        out := s.out
        lateTicks := s.lateTicks
        pending := s.pending } := by
  change execAutoclearComplete s = _
  rw [execAutoclearComplete, hop]

/-- R171, R3: the fifth byte of an answer-back frame during the autoclear. -/
theorem answerBackFrame_clearing {s : State} {n : LineNo} (b : Byte) (hop : s.op = some .autoclear)
    (hrx : (s.abSlot n).rx.length = 4) :
    exec (.answerBackFrame n false b) s = .next (s.setAbSlot n { s.abSlot n with rx := [] }) := by
  change execAnswerBackFrame n false b s = _
  have received : (s.abSlot n).receive b (decide (s.op = some .autoclear)) =
      { s.abSlot n with rx := [] } := by
    simp [AbSlot.receive, hrx, hop]
  unfold execAnswerBackFrame
  cases hl : (s.abSlot n).rx with
  | nil => rw [hl] at hrx; cases hrx
  | cons x rest => exact congrArg (fun v => Host.Outcome.next (s.setAbSlot n v)) received

/-- Settles O3: power-on and its completion are the reset state with what is kept; what the autoclear shuts
out is shut out by the first test of each row. -/
theorem powerOnAndAutoclear : Obligations.PowerOnAndAutoclear := by
  refine ⟨⟨fun s => ⟨_, powerOn_eq s, rfl, powerOn_eq s.poweredOn, ?_⟩,
    fun s hop => ⟨_, autoclearComplete_eq hop, ?_⟩⟩, fun s hop => ?_⟩
  · exact autoclearComplete_eq (s := s.poweredOn) rfl
  · refine ⟨rfl, rfl, rfl, by simp only [State.reset], rfl, rfl, rfl, rfl, rfl, rfl, rfl, rfl, rfl,
      fun _ => rfl, fun _ => rfl, fun n => ?_, fun c => ?_, fun n => ?_, rfl, rfl, fun c => ?_, rfl, rfl, rfl, rfl, rfl, rfl, rfl, rfl,
      rfl⟩
    · fin_cases n <;> rfl
    · cases c <;> rfl
    · fin_cases n <;> rfl
    · cases c <;> rfl
  · have shut : ∀ {u v : State}, (if s.op = some .autoclear then u else v) = u := if_pos hop
    refine ⟨congrArg _ shut, fun n b => congrArg _ shut, fun c => if_pos hop,
      fun c slot gen => ⟨congrArg _ shut, congrArg _ shut⟩, fun c kind slot gen => congrArg _ (if_pos ?_),
      fun n => congrArg _ shut, fun n b hrx => answerBackFrame_clearing b hop hrx, fun n => ?_⟩
    · simp [hop]
    · simp [State.lineHold, State.abHold, hop]

end Sys2Proof.Machine
end

/-! ## The purge and the endings (R91, R36, R52, R53, R100, R101) -/

section

namespace Sys2Proof.Machine

/-! ### The purge -/

/-- R100: the purge takes slot `i`. -/
theorem purgeSlot_eq {s : State} {i : Nat} (hop : s.op = some (.purge i)) (hi : i < 256) :
    exec .purgeSlot s = .next { s.purgeIndex i with op := some (.purge (i + 1)) } := by
  change execPurgeSlot s = _
  rw [execPurgeSlot, hop]
  exact congrArg _ (if_pos hi)

theorem State.boundLine_eq_some {s : State} {t : Tag} {n : LineNo} (hn : (s.line n).bound = some t)
    (other : ∀ m, m ≠ n → (s.line m).bound ≠ some t) : s.boundLine t = some n := by
  cases h : s.boundLine t with
  | none =>
    have listed : ∀ m : LineNo, m ∈ ([0, 1, 2, 3] : List LineNo) := by decide
    exact absurd hn (by simpa using List.find?_eq_none.1 h n (listed n))
  | some m =>
    have hm : (s.line m).bound = some t := by simpa using List.find?_some h
    by_contra hne
    exact other m (fun heq => hne (by rw [heq])) hm

theorem State.boundLine_eq_none {s : State} {t : Tag} (h : ∀ m, (s.line m).bound ≠ some t) :
    s.boundLine t = none :=
  List.find?_eq_none.2 fun m _ => by simpa using h m

/-- R100: the purge reaches a slot with an entry. -/
theorem State.purgeIndex_of_some {s : State} {i : Nat} {e : Entry} (he : (s.slot i).entry = some e) :
    s.purgeIndex i = s.purgeEntry { slot := i, gen := (s.slot i).gen } e := by
  rw [State.purgeIndex, he]

theorem State.purgeEntry_of_not_assembling {s : State} {t : Tag} {e : Entry} (h : e.state ≠ .assembling) :
    s.purgeEntry t e = s.endEntry .cancelled t := by
  unfold State.purgeEntry
  cases he : e.state with
  | assembling => exact absurd he h
  | waiting | queued | onAir | listening => rfl

theorem State.purgeEntry_of_assembling {s : State} {t : Tag} {e : Entry} (h : e.state = .assembling) :
    s.purgeEntry t e =
      match s.boundLine t with
      | some n => (s.endEntry .aborted t).setLine n (s.line n).purged
      | none => s.endEntry .aborted t := by
  unfold State.purgeEntry
  rw [h]
  cases s.boundLine t <;> rfl

/-- Settles O39: the beginning of a purge, a slot of each kind, and its completion. -/
theorem purgeTakesTheSlots : Obligations.PurgeTakesTheSlots := by
  refine ⟨fun s harr => ?_, fun s i hop hi => ⟨fun he => ?_, fun e he hst => ?_,
    fun e n he hst hn other => ?_, fun e he hst free => ?_⟩, fun s i hop hi => ?_⟩
  · change Host.Outcome.next (portCode .purgeTraffic takePurgeTraffic s) = _
    rw [portCode_operative harr]
    rfl
  · rw [purgeSlot_eq hop hi, State.purgeIndex, he]
  · rw [purgeSlot_eq hop hi, State.purgeIndex_of_some he, State.purgeEntry_of_not_assembling hst]
  · rw [purgeSlot_eq hop hi, State.purgeIndex_of_some he, State.purgeEntry_of_assembling hst,
      State.boundLine_eq_some hn other]
    rfl
  · rw [purgeSlot_eq hop hi, State.purgeIndex_of_some he, State.purgeEntry_of_assembling hst,
      State.boundLine_eq_none free]
  · change execPurgeComplete s = _
    rw [execPurgeComplete, hop, ← State.completeOp_eq]
    exact congrArg _ (if_pos hi)

/-! ### The account of an ending -/

/-- R52, R53: the account that an ending of kind `k` leaves, the page charged `c` and refunded `r`. -/
def Account.afterEnding (a : Account) (k : Ending) (c r : Nat) : Account :=
  let bal : Int := min 8388607 (a.balance + (r : Int))
  { a with
    balance := bal, held := a.held - c, overrun := decide (bal < -(a.cl : Int))
    refunded := min 16777215 (a.refunded + r), mark := true
    delivered := if k = .delivered then min 65535 (a.delivered + 1) else a.delivered
    sentOnly := if k = .sentOnly then min 65535 (a.sentOnly + 1) else a.sentOnly
    expired := if k = .expired then min 65535 (a.expired + 1) else a.expired
    cancelled := if k = .cancelled then min 65535 (a.cancelled + 1) else a.cancelled
    aborted := if k = .aborted then min 65535 (a.aborted + 1) else a.aborted }

theorem clampBalance_add {b : Int} (h : -8388608 ≤ b) (r : Nat) :
    clampBalance (b + r) = min 8388607 (b + r) := by
  simp only [clampBalance, Config.balanceMin, Config.balanceMax]
  omega

/-- R35, R36: the account after an ending that pays a refund. -/
theorem Account.endPage_recompute {a : Account} (h : a.Ok) {k : Ending} (c r : Nat) :
    (a.endPage k c r).recompute = a.afterEnding k c r := by
  have hb := clampBalance_add h.balanceMin r
  cases k <;>
    simp only [Account.endPage, Account.countEnding, Account.recompute, Account.afterEnding, overrunOf, hb] <;>
    rfl

/-- R35: an ending does not bring an account over its limit. -/
theorem Account.afterEnding_overrun {a : Account} (h : a.Ok) {k : Ending} {c r : Nat}
    (ho : (a.afterEnding k c r).overrun = true) : a.overrun = true := by
  have hlt : min 8388607 (a.balance + (r : Int)) < -(a.cl : Int) := of_decide_eq_true ho
  have hmax := h.balanceMax
  exact h.overrun.2 (by omega)

/-- R36, R53: an ending without refund settles the account, its balance and overrun flag as they were. -/
theorem Account.endUnpaid_eq {a : Account} (h : a.Ok) {k : Ending} (c : Nat)
    (hk : k = .delivered ∨ k = .sentOnly) : a.endUnpaid k c = a.afterEnding k c 0 := by
  have hb : min 8388607 (a.balance + ((0 : Nat) : Int)) = a.balance := by
    have := h.balanceMax
    omega
  have hr : min 16777215 (a.refunded + 0) = a.refunded := by
    have := h.units
    omega
  have ho : decide (a.balance < -(a.cl : Int)) = a.overrun := by
    rw [Bool.eq_iff_iff, decide_eq_true_eq, h.overrun]
  rcases hk with rfl | rfl <;>
    simp only [Account.afterEnding, Account.endUnpaid, Account.countEnding, hb, hr, ho] <;> rfl

/-- R35, R36: on an account in order an ending writes the settled account and raises nothing. -/
theorem State.endingEvent_eq {s : State} {i : Nat} {k : Ending} (hk : k ≠ .none) (h : (s.acct i).Ok)
    (c n r : Nat) :
    s.endingEvent i k c (refundOf k c n r) =
      s.setAcct i ((s.acct i).afterEnding k c (refundOf k c n r)) := by
  have quiet : ∀ k' r', (((s.acct i).afterEnding k' c r').overrun && !(s.acct i).overrun) = false := by
    intro k' r'
    cases ho : ((s.acct i).afterEnding k' c r').overrun with
    | false => rfl
    | true => rw [Account.afterEnding_overrun h ho]; rfl
  have paid : ∀ k' r', s.commit i ((s.acct i).endPage k' c r') =
      s.setAcct i ((s.acct i).afterEnding k' c r') := by
    intro k' r'
    rw [State.commit_eq, Account.endPage_recompute h, quiet]
    rfl
  cases k with
  | none => exact absurd rfl hk
  | delivered => exact congrArg (s.setAcct i) (Account.endUnpaid_eq h c (.inl rfl))
  | sentOnly => exact congrArg (s.setAcct i) (Account.endUnpaid_eq h c (.inr rfl))
  | expired => exact paid _ _
  | cancelled => exact paid _ _
  | aborted => exact paid _ _

/-! ### An ending, field by field -/

section
variable {s : State} {t : Tag} {e : Entry} (k : Ending) (h : s.entry t = some e)
include h

/-- R24, R91: the hold after the blocks are given back. -/
theorem State.endEntry_poolHold :
    (s.endEntry k t).poolHold =
      poolHoldOf (s.freeBlocks.length + e.blocks.length) s.lowMark s.highMark s.poolHold := by
  have length : (e.blocks.reverse ++ s.freeBlocks).length = s.freeBlocks.length + e.blocks.length := by
    rw [List.length_append, List.length_reverse, Nat.add_comm]
  rw [State.endEntry_of_some k h, State.freeSlot_poolHold, State.lowerLive_poolHold,
    State.endingEvent_poolHold, State.leavePlace_poolHold, State.giveBlocks_eq]
  dsimp only
  rw [length]

/-- R36: an ending writes its account by the account event alone. -/
theorem State.acct_endEntry (j : Nat) :
    (s.endEntry k t).acct j = (s.endingEvent e.account k e.charge (s.refundFor k e)).acct j :=
  State.acct_congr (State.endEntry_accounts k h) j

/-- R24, R35: with its account in order an ending raises POOL_HOLD only, where the hold goes up. -/
theorem State.endEntry_port_of_ok (hk : k ≠ .none) (ha : (s.acct e.account).Ok) :
    (s.endEntry k t).port =
      { s.port with
        causes := if (s.endEntry k t).poolHold && !s.poolHold then s.port.causes ||| 0x04
          else s.port.causes } := by
  have ha' : (((s.giveBlocks e.blocks).leavePlace t e).acct e.account).Ok := by
    rw [State.acct_leavePlace, State.acct_congr (State.giveBlocks_accounts s e.blocks)]
    exact ha
  have hold : (s.endEntry k t).poolHold = (s.giveBlocks e.blocks).poolHold := by
    rw [State.endEntry_of_some k h, State.freeSlot_poolHold, State.lowerLive_poolHold,
      State.endingEvent_poolHold, State.leavePlace_poolHold]
  rw [hold, State.endEntry_of_some k h, State.freeSlot_port, State.lowerLive_port, State.refundFor,
    State.endingEvent_eq hk ha', State.setAcct_port, State.leavePlace_port, State.giveBlocks_eq]

end

/-- Settles O36: the ending block by block. -/
theorem endingsSettleThePage : Obligations.EndingsSettleThePage := by
  intro s k t e he hk ha u a part refund free hold bal
  have hrefund : s.refundFor k e = refund := by cases k <;> rfl
  have hhold : u.poolHold = hold := State.endEntry_poolHold k he
  refine ⟨State.slot_endEntry k he, fun j hj => State.slot_endEntry_ne k he hj,
    State.endEntry_freeBlocks k he, hhold, ?_, ?_, fun j hj => ?_⟩
  · rw [← hhold]
    exact State.endEntry_port_of_ok k he hk ha
  · have hacct : u.acct e.account = a.afterEnding k e.charge refund := by
      rw [State.acct_endEntry k he, State.refundFor, State.endingEvent_eq hk ha, State.acct_setAcct]
      exact congrArg _ hrefund
    exact hacct
  · rw [State.acct_endEntry k he]
    exact s.acct_endingEvent_ne k e.charge _ hj

/-- R91: an ending leaves every field but those of its blocks. -/
theorem State.endEntry_frame (s : State) (k : Ending) (t : Tag) :
    let u := s.endEntry k t
    u = { s with
      op := u.op, pendingRemovals := u.pendingRemovals, lookups := u.lookups, directory := u.directory
      freeBlocks := u.freeBlocks, poolHold := u.poolHold, accounts := u.accounts, lines := u.lines
      slots := u.slots, wheel := u.wheel, visits := u.visits, chans := u.chans, port := u.port } := by
  intro u
  exact congrArg (fun v : State => { v with
      op := u.op, pendingRemovals := u.pendingRemovals, lookups := u.lookups, directory := u.directory
      freeBlocks := u.freeBlocks, poolHold := u.poolHold, accounts := u.accounts, lines := u.lines
      slots := u.slots, wheel := u.wheel, visits := u.visits, chans := u.chans, port := u.port })
    (s.endEntry_outside k t)

/-- R91, step 2: the place that an entry leaves, by its state. -/
theorem State.leavePlace_places (s : State) (t : Tag) (e : Entry) :
    (s.leavePlace t e).lines = (if e.state = .assembling then (s.unbindLines t).lines else s.lines) ∧
    (s.leavePlace t e).chans = (if e.state = .queued then (s.leaveBand t e.chan).chans else s.chans) ∧
    (s.leavePlace t e).wheel =
      (if e.state = .waiting ∨ e.state = .listening then (s.leaveSlot t e).wheel else s.wheel) ∧
    (s.leavePlace t e).visits =
      (if e.state = .waiting ∨ e.state = .listening then (s.leaveSlot t e).visits else s.visits) := by
  have slot : (s.leaveSlot t e).lines = s.lines ∧ (s.leaveSlot t e).chans = s.chans := by
    unfold State.leaveSlot
    cases e.wheel <;> exact ⟨rfl, rfl⟩
  unfold State.leavePlace
  cases e.state with
  | waiting => exact ⟨slot.1, slot.2, rfl, rfl⟩
  | listening => exact ⟨slot.1, slot.2, rfl, rfl⟩
  | assembling => exact ⟨rfl, rfl, rfl, rfl⟩
  | queued => exact ⟨rfl, rfl, rfl, rfl⟩
  | onAir => exact ⟨rfl, rfl, rfl, rfl⟩

/-- Settles O37: the frame of an ending, each field by its law. -/
theorem endingsLeaveTheirPlace : Obligations.EndingsLeaveTheirPlace := by
  intro s k t e r he hr
  obtain ⟨hop, hpending, hlookups⟩ := State.endEntry_of_record k he hr
  obtain ⟨hlines, hchans, hwheel, hvisits⟩ := s.leavePlace_places t e
  intro u dropped begins
  have frame := s.endEntry_frame k t
  dsimp only at frame
  rw [hop, hpending, hlookups, State.endEntry_directory k he, State.endEntry_lines k he, hlines,
    State.endEntry_chans k he, hchans, State.endEntry_wheel k he, hwheel, State.endEntry_visits k he,
    hvisits] at frame
  exact frame

end Sys2Proof.Machine
end

/-! ## TABLE WRITE: the staging byte, the watermarks and the monitor's settings (R24, R41, R150, R152) -/

section

namespace Sys2Proof.Machine

/-! ### One byte at the pointer (R41) -/

section
variable {s : State} {f : Field} (b : Byte) (hf : fieldAt s.tablePtr = some f)
include hf

/-- R41: a byte at a field of one byte takes effect. -/
theorem State.writeTableByte_of_byte (hw : f.width = 1) :
    s.writeTableByte b = State.writeField { s with tablePtr := nextPtr s.tablePtr } f b.toNat := by
  simp only [State.writeTableByte, hf, if_pos hw]

variable (hw : f.width ≠ 1)
include hw

/-- R41: the first byte of a wider field is staged in place of anything staged. -/
theorem State.writeTableByte_of_first (hp : s.tablePtr = f.first) :
    s.writeTableByte b =
      { s with tablePtr := nextPtr s.tablePtr, staging := some { first := f.first, bytes := [b] } } := by
  simp only [State.writeTableByte, hf, if_neg hw, if_pos hp]

variable (hp : s.tablePtr ≠ f.first)
include hp

/-- R41: a later byte whose earlier ones are not staged is dropped, and the staging byte emptied. -/
theorem State.writeTableByte_of_unstaged
    (hst : ∀ st, s.staging = some st → st.first ≠ f.first ∨ st.bytes.length ≠ s.tablePtr - f.first) :
    s.writeTableByte b = { s with tablePtr := nextPtr s.tablePtr, staging := none } := by
  simp only [State.writeTableByte, hf, if_neg hw, if_neg hp]
  cases hs : s.staging with
  | none => rfl
  | some st =>
    have lost : ¬ (decide (st.first = f.first) &&
        decide (st.bytes.length = s.tablePtr - f.first)) = true := by
      rw [Bool.and_eq_true, decide_eq_true_eq, decide_eq_true_eq]
      rintro ⟨h1, h2⟩
      exact (hst st hs).elim (fun h => h h1) (fun h => h h2)
    simp only [if_neg lost]

variable {bs : List Byte} (hst : s.staging = some { first := f.first, bytes := bs })
  (hlen : f.first + bs.length = s.tablePtr)
include hst hlen

/-- R41: a later byte joins the earlier ones of its field, and with the last the field takes effect. -/
theorem State.writeTableByte_of_staged :
    s.writeTableByte b =
      if bs.length + 1 = f.width then
        State.writeField { s with tablePtr := nextPtr s.tablePtr, staging := none } f (beValue (bs ++ [b]))
      else
        { s with tablePtr := nextPtr s.tablePtr
                 staging := some { first := f.first, bytes := bs ++ [b] } } := by
  have joined : bs.length = s.tablePtr - f.first := by omega
  simp only [State.writeTableByte, hf, if_neg hw, if_neg hp, hst]
  exact if_pos (by simpa using joined)

end

/-! ### TABLE WRITE of one byte and of two -/

/-- R162: the state on which a command is taken at its last argument byte: its frame is closed. -/
def State.lastTaken (s : State) : State := s.setPort { s.port.paired with frame := none }

/-- R41: TABLE WRITE of one data byte. -/
theorem tableWrite_one {s : State} {b : Byte} (harr : s.lastArrives .tableWrite [1] b noDesig)
    (idle : s.op = none) :
    exec (.tableWrite (.last b)) s = .next
      ((s.lastTaken.writeTableByte b).answer .ok []) := by
  change Host.Outcome.next (portLast .tableWrite takeTableWrite b s) = _
  rw [portLast_taken harr (.inl idle)]
  rfl

/-- R41: TABLE WRITE of two data bytes. -/
theorem tableWrite_two {s : State} {b0 b1 : Byte} (harr : s.lastArrives .tableWrite [2, b0] b1 noDesig)
    (idle : s.op = none) :
    exec (.tableWrite (.last b1)) s = .next
      (((s.lastTaken.writeTableByte b0).writeTableByte b1).answer .ok []) := by
  change Host.Outcome.next (portLast .tableWrite takeTableWrite b1 s) = _
  rw [portLast_taken harr (.inl idle)]
  rfl

/-! ### Fields of two and three bytes -/

/-- R172: the fields of two and three bytes: first address, width, and the ends of the range. -/
def wideField (p : Nat) : Option (Nat × Nat × Nat × Nat) :=
  if 0x34 ≤ p ∧ p < 0x38 then some (p - p % 2, 2, 0, 2048)
  else if 0x40 ≤ p ∧ p < 0xC0 ∧ 3 ≤ p % 16 ∧ p % 16 ≤ 6 then some (p - (p % 16 + 1) % 2, 2, 1, 1023)
  else if 0x40 ≤ p ∧ p < 0xC0 ∧ 7 ≤ p % 16 ∧ p % 16 ≤ 8 then some (p - (p % 16 + 1) % 2, 2, 60, 65535)
  else if 0xC0 ≤ p ∧ p < 0x140 ∧ 1 ≤ p % 16 ∧ p % 16 ≤ 6 then some (p - (p % 16 - 1) % 3, 3, 0, 4194303)
  else if 0x160 ≤ p ∧ p < 0x16C then some (p - p % 2, 2, 0, 4095)
  else if (0x200 ≤ p ∧ p < 0x220) ∨ (0x240 ≤ p ∧ p < 0x260) ∨ (0x280 ≤ p ∧ p < 0x284) then
    some (p - p % 2, 2, 0, 65535)
  else none

theorem wideField_fieldAt :
    ∀ p, p < 0x284 → ∀ q ∈ wideField p,
      (fieldAt p).map (fun f => (f.first, f.width, f.lo, f.hi)) = some q ∧ q.2.1 ≠ 1 := by
  decide +kernel

theorem wideField_lt {p : Nat} {q : Nat × Nat × Nat × Nat} (h : wideField p = some q) : p < 0x284 := by
  by_contra hp
  have none : wideField p = none := by
    unfold wideField
    repeat rw [if_neg (by omega)]
  rw [none] at h
  cases h

/-- R172: a field of two or three bytes is the one that the address map gives. -/
theorem fieldAt_of_wideField {p first width lo hi : Nat} (h : wideField p = some (first, width, lo, hi)) :
    ∃ f, fieldAt p = some f ∧ f.first = first ∧ f.width = width ∧ f.lo = lo ∧ f.hi = hi ∧ f.width ≠ 1 := by
  obtain ⟨hmap, hw⟩ := wideField_fieldAt p (wideField_lt h) _ h
  obtain ⟨f, hf, heq⟩ := Option.map_eq_some_iff.1 hmap
  simp only [Prod.mk.injEq] at heq
  obtain ⟨h1, h2, h3, h4⟩ := heq
  exact ⟨f, hf, h1, h2, h3, h4, h2 ▸ hw⟩

/-- R172: tier limits, level enables, the boot level and the thresholds are fields of one byte. -/
theorem enable_width : ∀ l, l ≤ 3 → 1 ≤ l → ∀ f ∈ fieldAt (enableAddr l), f.width = 1 := by decide
theorem boot_width : ∀ f ∈ fieldAt bootAddr, f.width = 1 := by decide
theorem threshold_width : ∀ n : LineNo, ∀ f ∈ fieldAt (0x180 + 2 * n.val), f.width = 1 := by decide

/-- R41, R81, R119, R120, R146: a field of more than one byte that is no watermark is only written. -/
theorem State.writeField_of_wide (s : State) {f : Field} (v : Nat) (hf : fieldAt f.first = some f)
    (hw : f.width ≠ 1) (low : f.first ≠ lowAddr) (high : f.first ≠ highAddr) :
    s.writeField f v = s.setSetting f.first (f.clamp v) := by
  have narrow : ∀ {g}, fieldAt f.first = some g → g.width ≠ 1 := fun hg => by
    rw [hf] at hg
    cases hg
    exact hw
  rcases s.writeField_cases f v with ⟨ha, -⟩ | ⟨ha, -⟩ | ⟨⟨p, hp, ha⟩, -⟩ | ⟨⟨p, hp, ha⟩, -⟩ |
    ⟨l, h1, h3, ha, -⟩ | ⟨ha, -⟩ | ⟨⟨n, ha⟩, -⟩ | ⟨-, -, -, -, -, -, hset⟩
  · exact absurd ha low
  · exact absurd ha high
  · exact absurd rfl (narrow (ha ▸ fieldAt_t1 p hp))
  · exact absurd rfl (narrow (ha ▸ fieldAt_t2 p hp))
  · exact absurd (enable_width l h3 h1 f (ha ▸ hf)) hw
  · exact absurd (boot_width f (ha ▸ hf)) hw
  · exact absurd (threshold_width n f (ha ▸ hf)) hw
  · exact hset

theorem State.writeField_low (s : State) {f : Field} (v : Nat) (h : f.first = lowAddr) :
    s.writeField f v = s.writeLow (f.clamp v) := if_pos h

theorem State.writeField_high (s : State) {f : Field} (v : Nat) (h : f.first = highAddr) :
    s.writeField f v = s.writeHigh (f.clamp v) := by
  unfold State.writeField
  dsimp only
  rw [if_neg (by rw [h]; decide), if_pos h]

/-- R24: the high watermark written: the setting, the hold and its notice cause. -/
theorem State.writeHigh_eq (s : State) (v : Nat) :
    let high := max v s.lowMark
    let hold := poolHoldOf s.freeBlocks.length s.lowMark high s.poolHold
    s.writeHigh v =
      { s.setSetting highAddr high with
        poolHold := hold
        port := { s.port with
          causes := if hold && !s.poolHold then s.port.causes ||| 0x04 else s.port.causes } } := by
  have low : (s.setSetting highAddr (max v s.lowMark)).lowMark = s.lowMark :=
    State.setting_setSetting_ne s _ (by decide)
  have high : (s.setSetting highAddr (max v s.lowMark)).highMark = max v s.lowMark :=
    State.setting_setSetting ..
  intro h hold
  rw [State.writeHigh, State.recomputePool_eq, low, high]
  rfl

/-- R41, R24: one byte at a field of two or three bytes. -/
theorem wideBytes (s : State) (b : Byte) {first width lo hi : Nat}
    (hfield : wideField s.tablePtr = some (first, width, lo, hi)) :
    let p := s.tablePtr
    let u := s.writeTableByte b
    let moved : State := { s with tablePtr := (p + 1) % 2048 }
    (p = first → u = { moved with staging := some { first := first, bytes := [b] } }) ∧
    (p ≠ first →
      (∀ st, s.staging = some st → st.first ≠ first ∨ st.bytes.length ≠ p - first) →
      u = { moved with staging := none }) ∧
    (∀ bs : List Byte, p ≠ first → s.staging = some { first := first, bytes := bs } →
      first + bs.length = p →
      (p + 1 < first + width →
        u = { moved with staging := some { first := first, bytes := bs ++ [b] } }) ∧
      (p + 1 = first + width →
        let v := max lo (min hi ((bs ++ [b]).foldl (fun x y => 256 * x + y.toNat) 0))
        (first ≠ 0x34 → first ≠ 0x36 →
          u.setting first = v ∧ (∀ a, a ≠ first → u.setting a = s.setting a) ∧
          u = { moved with staging := none, settings := u.settings }) ∧
        (first = 0x36 →
          let high := max v s.lowMark
          let hold := if s.freeBlocks.length < s.lowMark then true
            else if high ≤ s.freeBlocks.length then false else s.poolHold
          u.setting 0x36 = high ∧ (∀ a, a ≠ 0x36 → u.setting a = s.setting a) ∧
          u = { moved with
            staging := none, settings := u.settings, poolHold := hold
            port := { s.port with
              causes := if hold && !s.poolHold then s.port.causes ||| 0x04 else s.port.causes } }))) := by
  obtain ⟨f, hf, rfl, rfl, rfl, rfl, hw⟩ := fieldAt_of_wideField hfield
  refine ⟨fun hp => State.writeTableByte_of_first b hf hw hp,
    fun hp hst => State.writeTableByte_of_unstaged b hf hw hp hst,
    fun bs hp hst hlen => ⟨fun hmore => ?_, fun hlast => ?_⟩⟩
  · rw [State.writeTableByte_of_staged b hf hw hp hst hlen, if_neg (by omega)]
    rfl
  · rw [State.writeTableByte_of_staged b hf hw hp hst hlen, if_pos (by omega)]
    refine ⟨fun low high => ?_, fun high => ?_⟩
    · rw [State.writeField_of_wide _ _ (fieldAt_first hf) hw low high]
      exact ⟨State.setting_setSetting .., fun a ha => State.setting_setSetting_ne _ _ ha, rfl⟩
    · rw [State.writeField_high _ _ high, State.writeHigh_eq]
      exact ⟨State.setting_setSetting .., fun a ha => State.setting_setSetting_ne _ _ ha, rfl⟩

end Sys2Proof.Machine
end

/-! ## The low watermark, the level enables and the boot level written (R24, R150, R152) -/

section

namespace Sys2Proof.Machine

/-! ### The low watermark -/

/-- R24: the low watermark written: both settings, the hold and its notice cause. -/
theorem State.writeLow_frame (s : State) (v : Nat) :
    let t := s.writeLow v
    let high := max v s.highMark
    let hold := poolHoldOf s.freeBlocks.length v high s.poolHold
    t.lowMark = v ∧ t.highMark = high ∧
    (∀ a, a ≠ lowAddr → a ≠ highAddr → t.setting a = s.setting a) ∧
    t = { s with
      settings := t.settings, poolHold := hold
      port := { s.port with
        causes := if hold && !s.poolHold then s.port.causes ||| 0x04 else s.port.causes } } := by
  intro t high hold
  have hset : ∀ a, t.setting a = if a = lowAddr then v else if a = highAddr then high else s.setting a := by
    intro a
    rw [State.setting_congr (State.writeLow_settings s v)]
    by_cases hlt : s.highMark < v
    · have hh : high = v := Nat.max_eq_left hlt.le
      rw [if_pos hlt, State.setting_setSetting_eq, State.setting_setSetting_eq, hh]
      by_cases h1 : a = lowAddr
      · rw [if_pos h1, if_pos h1, if_neg (by rw [h1]; decide)]
      · rw [if_neg h1, if_neg h1]
    · have hh : high = s.highMark := Nat.max_eq_right (Nat.le_of_not_lt hlt)
      rw [if_neg hlt, State.setting_setSetting_eq, hh]
      by_cases h2 : a = highAddr
      · rw [if_pos h2, h2]
        rfl
      · rw [if_neg h2]
  have low : t.lowMark = v := (hset lowAddr).trans (if_pos rfl)
  have high' : t.highMark = high := (hset highAddr).trans (by rw [if_neg (by decide), if_pos rfl])
  refine ⟨low, high', fun a h1 h2 => by rw [hset, if_neg h1, if_neg h2], ?_⟩
  obtain ⟨ss, hss⟩ : ∃ ss, t = State.recomputePool { s with settings := ss } := by
    change ∃ ss, s.writeLow v = _
    rw [State.writeLow_eq]
    split <;> exact ⟨_, rfl⟩
  have same : ∀ a, t.setting a = State.setting { s with settings := ss } a := fun a => by
    rw [hss]
    exact State.setting_congr (State.recomputePool_settings _) a
  have lo : State.lowMark { s with settings := ss } = v := (same lowAddr).symm.trans low
  have hi : State.highMark { s with settings := ss } = high := (same highAddr).symm.trans high'
  rw [hss, State.recomputePool_eq, lo, hi]

theorem State.raise_poolHold_if (s : State) (up : Bool) :
    (if up then s.raise .poolHold else s) =
      { s with port := { s.port with causes := if up then s.port.causes ||| 0x04 else s.port.causes } } := by
  cases up <;> rfl

/-! ### The level enables and the boot level -/

/-- R172: the enable of level `l`, and the boot level. -/
def enableField (l : Nat) : Field := { first := enableAddr l, width := 1, lo := 0, hi := 1, dflt := 1 }
def bootField : Field := { first := bootAddr, width := 1, lo := 0, hi := 3, dflt := 0 }

theorem fieldAt_enable : ∀ l, l ≤ 3 → 1 ≤ l → fieldAt (enableAddr l) = some (enableField l) := by decide

theorem fieldAt_boot : fieldAt bootAddr = some bootField := by decide

theorem State.writeField_enable (s : State) {f : Field} {l : Nat} (v : Nat) (hl : 1 ≤ l ∧ l ≤ 3)
    (h : f.first = enableAddr l) : s.writeField f v = s.writeEnable l (f.clamp v) := by
  obtain ⟨h1, h3⟩ := hl
  have hlow : f.first ≠ lowAddr := by rw [h, enableAddr, lowAddr]; omega
  have hhigh : f.first ≠ highAddr := by rw [h, enableAddr, highAddr]; omega
  rw [enableAddr] at h
  have hsub : f.first - 0x16D = l := by omega
  simp only [State.writeField, if_neg hlow, if_neg hhigh, hsub]
  rw [if_neg (by simp; omega), if_neg (by simp; omega), if_pos (by simp; omega)]

theorem State.writeField_boot (s : State) {f : Field} (v : Nat) (h : f.first = bootAddr) :
    s.writeField f v = s.writeBoot (f.clamp v) := by
  simp only [State.writeField, h]
  rfl

/-- R150: an enable of level `l` does not matter below it. -/
theorem State.nextLower_setSetting_enable (s : State) (l v : Nat) :
    (s.setSetting (enableAddr l) v).nextLower l = s.nextLower l := by
  have below : ∀ k, (decide (k < l) && (s.setSetting (enableAddr l) v).levelEnabled k) =
      (decide (k < l) && s.levelEnabled k) := fun k => by
    by_cases hk : k < l
    · rw [State.levelEnabled, State.levelEnabled,
        State.setting_setSetting_ne s v (by simp only [enableAddr]; omega)]
    · simp [hk]
  simp only [State.nextLower, below]

/-- R150, R152: what a written monitor setting leaves when channel `c` is moved to level `g c`. -/
theorem State.moveLevels_answered {s u : State} {p v : Nat} {g : Chan → Nat}
    (hu : u = State.setSetting { s.lastTaken with tablePtr := p + 1 } p v) :
    let t := (u.moveLevels g).answer .ok []
    t.setting p = v ∧ (∀ a, a ≠ p → t.setting a = s.setting a) ∧ t.effectiveBoot = u.effectiveBoot ∧
    (∀ c, let m := s.mon c
      t.mon c = if m.level = g c then m else { m with level := g c, up := 0, down := 0, residency := 0 }) ∧
    t.port = { (s.afterLast [0x00]).port with
      causes := if t.mons = s.mons then s.port.causes else s.port.causes ||| 0x01 } ∧
    t = { s with port := t.port, settings := t.settings, mons := t.mons, tablePtr := p + 1 } := by
  intro t
  have hset : ∀ a, t.setting a = u.setting a := fun a => State.setting_congr (State.moveLevels_settings u g) a
  have causes : u.port.causes = s.port.causes := by
    rw [hu]
    exact Port.paired_causes s.port
  have hport : (u.moveLevels g).port =
      { u.port with causes := if (u.moveLevels g).mons = u.mons then s.port.causes
                              else s.port.causes ||| 0x01 } := by
    rw [← causes]
    conv_lhs => rw [State.moveLevels_frame]
  subst hu
  refine ⟨(hset p).trans (State.setting_setSetting ..),
    fun a ha => (hset a).trans (State.setting_setSetting_ne _ _ ha),
    State.effectiveBoot_congr (State.moveLevels_settings _ g), fun c => State.mon_moveLevels _ g c, ?_, ?_⟩
  · exact congrArg (fun q : Port => q.answered [0x00]) hport
  · exact congrArg (fun w : State => { w with port := t.port, settings := t.settings, mons := t.mons })
      (State.moveLevels_frame _ g)

/-- R150, R152: TABLE WRITE of a level enable. -/
theorem tableWrite_enable {s : State} {b : Byte} {l : Nat} (harr : s.lastArrives .tableWrite [1] b noDesig)
    (idle : s.op = none) (hl : 1 ≤ l ∧ l ≤ 3) (hp : s.tablePtr = enableAddr l) :
    let u := State.setSetting { s.lastTaken with
      tablePtr := s.tablePtr + 1 } s.tablePtr (min 1 b.toNat)
    exec (.tableWrite (.last b)) s = .next
      ((u.moveLevels (fun c =>
        if s.setting s.tablePtr = min 1 b.toNat then (s.mon c).level
        else if s.monitorOn = false then u.effectiveBoot
        else if b = 0 ∧ (s.mon c).level = l then s.nextLower l
        else (s.mon c).level)).answer .ok []) := by
  intro u
  have hf : fieldAt s.lastTaken.tablePtr = some (enableField l) := by
    change fieldAt s.tablePtr = _
    rw [hp]
    exact fieldAt_enable l hl.2 hl.1
  have hne : nextPtr (enableAddr l) = enableAddr l + 1 :=
    Nat.mod_eq_of_lt (by rw [enableAddr, Config.tableSpace]; omega)
  have hzero : min 1 b.toNat = 0 ↔ b = 0 := by rw [byte_eq_zero_iff]; omega
  have hclamp : (enableField l).clamp b.toNat = min 1 b.toNat := Nat.zero_max _
  have hu : State.setSetting { s.lastTaken with
      tablePtr := nextPtr s.tablePtr } (enableAddr l) (min 1 b.toNat) = u := by
    simp only [u, hp, hne]
  have hlower : u.nextLower l = s.nextLower l := by
    rw [← hu]
    exact State.nextLower_setSetting_enable _ l _
  have taken : exec (.tableWrite (.last b)) s = .next ((State.writeEnable
      { s.lastTaken with tablePtr := nextPtr s.tablePtr } l
      (min 1 b.toNat)).answer .ok []) := by
    rw [tableWrite_one harr idle, State.writeTableByte_of_byte b hf rfl,
      State.writeField_enable _ _ hl rfl, hclamp]
    rfl
  rw [taken, State.writeEnable_eq]
  simp only [hu, hlower, hzero]
  rw [hp]
  rfl

/-- R152: TABLE WRITE of the boot level. -/
theorem tableWrite_boot {s : State} {b : Byte} (harr : s.lastArrives .tableWrite [1] b noDesig)
    (idle : s.op = none) (hp : s.tablePtr = bootAddr) :
    let u := State.setSetting { s.lastTaken with
      tablePtr := s.tablePtr + 1 } s.tablePtr (min 3 b.toNat)
    exec (.tableWrite (.last b)) s = .next
      ((u.moveLevels (fun c => if s.monitorOn then (s.mon c).level else u.effectiveBoot)).answer .ok []) := by
  intro u
  have hf : fieldAt s.lastTaken.tablePtr = some bootField := by
    change fieldAt s.tablePtr = _
    rw [hp]
    exact fieldAt_boot
  have hclamp : bootField.clamp b.toNat = min 3 b.toNat := Nat.zero_max _
  have hu : State.setSetting { s.lastTaken with
      tablePtr := nextPtr s.tablePtr } bootAddr (min 3 b.toNat) = u := by
    simp only [u, hp]
    rfl
  have taken : exec (.tableWrite (.last b)) s = .next ((State.writeBoot
      { s.lastTaken with tablePtr := nextPtr s.tablePtr }
      (min 3 b.toNat)).answer .ok []) := by
    rw [tableWrite_one harr idle, State.writeTableByte_of_byte b hf rfl,
      State.writeField_boot _ _ rfl, hclamp]
    rfl
  rw [taken, State.writeBoot_eq]
  simp only [hu]
  rfl

/-- R24, R41: the first byte of the low watermark goes to the staging byte. -/
theorem tableWrite_low_first {s : State} {b0 : Byte} (harr : s.lastArrives .tableWrite [1] b0 noDesig)
    (idle : s.op = none) (hp : s.tablePtr = 0x34) :
    exec (.tableWrite (.last b0)) s = .next
      { s.afterLast [0x00] with tablePtr := 0x35, staging := some { first := 0x34, bytes := [b0] } } := by
  have hf : fieldAt s.lastTaken.tablePtr = some lowField := by
    change fieldAt s.tablePtr = _
    rw [hp]
    exact fieldAt_low
  have hnext : nextPtr s.lastTaken.tablePtr = 0x35 := congrArg nextPtr hp
  rw [tableWrite_one harr idle, State.writeTableByte_of_first b0 hf (by decide) hp, hnext]
  rfl

/-- R24, R41: with its second byte the low watermark takes effect. -/
theorem tableWrite_low {s : State} {b0 b1 : Byte} (harr : s.lastArrives .tableWrite [2, b0] b1 noDesig)
    (idle : s.op = none) (hp : s.tablePtr = 0x34) :
    exec (.tableWrite (.last b1)) s = .next
      ((State.writeLow { s.lastTaken with tablePtr := 0x36, staging := none }
        (min 2048 (256 * b0.toNat + b1.toNat))).answer .ok []) := by
  let x : State := { s.lastTaken with tablePtr := 0x35, staging := some { first := 0x34, bytes := [b0] } }
  have hf : fieldAt s.lastTaken.tablePtr = some lowField := by
    change fieldAt s.tablePtr = _
    rw [hp]
    exact fieldAt_low
  have hnext : nextPtr s.lastTaken.tablePtr = 0x35 := congrArg nextPtr hp
  have first : s.lastTaken.writeTableByte b0 = x := by
    rw [State.writeTableByte_of_first b0 hf (by decide) hp, hnext]
    rfl
  have value : lowField.clamp (beValue ([b0] ++ [b1])) = min 2048 (256 * b0.toNat + b1.toNat) := by
    simp [Field.clamp, lowField, beValue]
  have second : x.writeTableByte b1 =
      State.writeLow { s.lastTaken with tablePtr := 0x36, staging := none }
        (min 2048 (256 * b0.toNat + b1.toNat)) := by
    have at35 : fieldAt x.tablePtr = some lowField := (by decide : fieldAt 0x35 = some lowField)
    have later : x.tablePtr ≠ lowField.first := (by decide : (0x35 : Nat) ≠ 0x34)
    rw [State.writeTableByte_of_staged (bs := [b0]) b1 at35 (by decide) later rfl rfl,
      if_pos (show [b0].length + 1 = lowField.width from rfl), State.writeField_low _ _ rfl, value]
    rfl
  rw [tableWrite_two harr idle, first, second]

/-- Settles O24: the low watermark in two bytes, the monitor's settings in one, and the bytes of the wider
fields. -/
theorem watermarkAndEnableWrites : Obligations.WatermarkAndEnableWrites := by
  refine ⟨fun s b0 b1 idle hp => ⟨fun harr => tableWrite_low_first harr idle hp, fun harr => ?_⟩,
    fun s b idle harr => ⟨fun l h1 h3 hp => ?_, fun hp => ?_⟩, fun s b => ?_⟩
  · intro low high hold
    obtain ⟨hlow, hhigh, hother, hframe⟩ :=
      State.writeLow_frame { s.lastTaken with tablePtr := 0x36, staging := none } low
    refine ⟨_, tableWrite_low harr idle hp, hlow, hhigh, hother, ?_⟩
    rw [State.raise_poolHold_if]
    exact congrArg (fun w : State => w.answer .ok []) hframe
  · obtain ⟨hset, hother, hboot, hmon, hport, hframe⟩ := State.moveLevels_answered (s := s) rfl
    refine ⟨_, tableWrite_enable harr idle ⟨h1, h3⟩ hp, hset, hother, fun c => ?_, hport, hframe⟩
    simp only [hboot]
    exact hmon c
  · obtain ⟨hset, hother, hboot, hmon, hport, hframe⟩ := State.moveLevels_answered (s := s) rfl
    refine ⟨_, tableWrite_boot harr idle hp, hset, hother, fun c => ?_, hport, hframe⟩
    simp only [hboot]
    exact hmon c
  · intro p u moved field first width lo hi hfield
    exact wideBytes s b hfield

end Sys2Proof.Machine
end

/-! ## The figures of the accounts under every change (R26, R34 to R36) -/

section

namespace Sys2Proof.Machine

/-! ### Account events -/

section
variable {a : Account} (ha : a.Ok)
include ha

theorem Account.Ok.withRefs {n : Nat} (hn : n ≤ 4096) : Account.Ok { a with refs := n } :=
  { ha with refs := hn }

theorem Account.Ok.countEnding (k : Ending) : (a.countEnding k).Ok := by
  obtain ⟨accepted, delivered, sentOnly, expired, cancelled, aborted⟩ := ha.pages
  cases k with
  | delivered => exact { ha with pages := ⟨accepted, satAdd_le .., sentOnly, expired, cancelled, aborted⟩ }
  | sentOnly => exact { ha with pages := ⟨accepted, delivered, satAdd_le .., expired, cancelled, aborted⟩ }
  | expired => exact { ha with pages := ⟨accepted, delivered, sentOnly, satAdd_le .., cancelled, aborted⟩ }
  | cancelled => exact { ha with pages := ⟨accepted, delivered, sentOnly, expired, satAdd_le .., aborted⟩ }
  | aborted => exact { ha with pages := ⟨accepted, delivered, sentOnly, expired, cancelled, satAdd_le ..⟩ }
  | none => exact ha

theorem Account.Ok.endUnpaid (k : Ending) (c : Nat) : (a.endUnpaid k c).Ok :=
  { ha.countEnding k with held := (Nat.sub_le ..).trans ha.held }

theorem Account.Ok.endPage (k : Ending) (c r : Nat) : (a.endPage k c r).recompute.Ok :=
  have counted := ha.countEnding k
  Account.recompute_ok (clampBalance_mem _) counted.cl ((Nat.sub_le ..).trans ha.held) counted.refs
    counted.pages ⟨counted.units.1, counted.units.2.1, satAdd_le ..⟩

theorem Account.Ok.admitPage (c : Nat) : (a.admitPage c).recompute.Ok :=
  Account.recompute_ok (clampBalance_mem _) ha.cl (satAdd_le ..) ha.refs
    ⟨satAdd_le .., ha.pages.2⟩ ⟨ha.units.1, satAdd_le .., ha.units.2.2⟩

end

/-- R36, R53: the account that an ending reaches. -/
theorem State.acct_endingEvent (s : State) (i : Nat) (k : Ending) (c r : Nat) :
    (s.endingEvent i k c r).acct i = (s.acct i).endUnpaid k c ∨
      (s.endingEvent i k c r).acct i = ((s.acct i).endPage k c r).recompute := by
  cases k with
  | delivered | sentOnly | none => exact .inl (State.acct_setAcct ..)
  | expired | cancelled | aborted => exact .inr (State.acct_commit ..)

/-- R34: an ending takes the page's charge off held of its account. -/
theorem State.acct_endingEvent_held (s : State) (i : Nat) (k : Ending) (c r j : Nat) :
    ((s.endingEvent i k c r).acct j).held = if i = j then (s.acct j).held - c else (s.acct j).held := by
  by_cases hj : i = j
  · subst hj
    rw [if_pos rfl]
    rcases s.acct_endingEvent i k c r with h | h <;> rw [h] <;> rfl
  · rw [if_neg hj, s.acct_endingEvent_ne k c r (Ne.symm hj)]

/-- R36: an admission reaches the account of its record only. -/
theorem State.acct_admitPage (s : State) (i : Nat) (src : Source) (h : Header) (r : Subscriber)
    (serial j : Nat) :
    (s.admitPage i src h r serial).acct j =
      if r.account = j then ((s.acct j).admitPage (s.newEntry src h r serial).charge).recompute
      else s.acct j := by
  have take : (s.takeBlocks (blocksOf h.len)).acct j = s.acct j :=
    State.acct_congr (by rw [State.takeBlocks_eq]) j
  let u := (s.takeBlocks (blocksOf h.len)).updateRecord h.addr
    (fun r => { r with nextSerial := (serial + 1) % 64, live := r.live + 1 })
  have event : (s.admitPage i src h r serial).accounts =
      (u.admissionEvent r.account (s.newEntry src h r serial).charge).accounts := rfl
  rw [← take, State.acct_congr event]
  by_cases hj : r.account = j
  · rw [← hj, if_pos rfl]
    exact State.acct_commit u ..
  · rw [if_neg hj]
    exact State.acct_commit_ne u _ (Ne.symm hj)

/-! ### Reference counts that move (R12) -/

/-- R12: the accounts of `t` are those of `s` but for their reference counts, which stay in their range. -/
def State.RefsMoved (s t : State) : Prop :=
  ∀ i, ∃ n, t.acct i = { s.acct i with refs := n } ∧ ((s.acct i).refs ≤ 4096 → n ≤ 4096)

theorem State.RefsMoved.of_accounts {s t : State} (h : t.accounts = s.accounts) : s.RefsMoved t :=
  fun i => ⟨(s.acct i).refs, State.acct_congr h i, id⟩

theorem State.RefsMoved.trans {s t u : State} (h : s.RefsMoved t) (h' : t.RefsMoved u) :
    s.RefsMoved u := fun i => by
  obtain ⟨n, ht, hn⟩ := h i
  obtain ⟨m, hu, hm⟩ := h' i
  refine ⟨m, by rw [hu, ht], fun hs => hm ?_⟩
  rw [ht]
  exact hn hs

theorem State.RefsMoved.raiseRefs (s : State) (i : Nat) : s.RefsMoved (s.raiseRefs i) := fun j => by
  rw [State.acct_raiseRefs]
  split
  · exact ⟨_, rfl, fun _ => satAdd_le ..⟩
  · exact ⟨_, rfl, id⟩

theorem State.RefsMoved.lowerRefs (s : State) (i : Nat) : s.RefsMoved (s.lowerRefs i) := fun j => by
  rw [State.acct_lowerRefs]
  split
  · exact ⟨_, rfl, (Nat.sub_le ..).trans⟩
  · exact ⟨_, rfl, id⟩

theorem State.RefsMoved.linked (s : State) (a old new : Nat) : s.RefsMoved (s.linked a old new) := by
  refine .trans (t := s.moveRefs old new) ?_ (.of_accounts rfl)
  unfold State.moveRefs
  split
  · exact .of_accounts rfl
  · exact (lowerRefs s old).trans (raiseRefs _ new)

theorem State.RefsMoved.removeRecord (s : State) (a : Nat) : s.RefsMoved (s.removeRecord a) := by
  unfold State.removeRecord
  dsimp only
  split
  · exact .trans (.of_accounts rfl) (lowerRefs _ _)
  · exact .of_accounts rfl

theorem State.RefsMoved.completeOp (s : State) : s.RefsMoved s.completeOp :=
  .of_accounts s.completeOp_accounts

/-! ### The ranges and the overrun flag (R26, R35) -/

theorem State.AccountsOk.refsMoved {s t : State} (h : s.AccountsOk) (moved : s.RefsMoved t) :
    t.AccountsOk := fun i => by
  obtain ⟨n, hi, hn⟩ := moved i
  rw [hi]
  exact (h i).withRefs (hn (h i).refs)

theorem State.AccountsOk.setAcct {s : State} (h : s.AccountsOk) {i : Nat} {a : Account} (ok : a.Ok) :
    (s.setAcct i a).AccountsOk := fun j => by
  by_cases hj : j = i
  · rw [hj, State.acct_setAcct]; exact ok
  · rw [State.acct_setAcct_ne s a hj]; exact h j

theorem State.AccountsOk.endEntry {s : State} (h : s.AccountsOk) (k : Ending) (t : Tag) :
    (s.endEntry k t).AccountsOk := fun j => by
  cases he : s.entry t with
  | none => rw [State.endEntry_of_none k he]; exact h j
  | some e =>
    rw [State.acct_endEntry k he]
    by_cases hj : j = e.account
    · subst hj
      rcases s.acct_endingEvent e.account k e.charge (s.refundFor k e) with ha | ha <;> rw [ha]
      · exact (h _).endUnpaid k _
      · exact (h _).endPage k _ _
    · rw [s.acct_endingEvent_ne k _ _ hj]; exact h j

theorem State.AccountsOk.admitPage {s : State} (h : s.AccountsOk) (i : Nat) (src : Source) (hdr : Header)
    (r : Subscriber) (serial : Nat) : (s.admitPage i src hdr r serial).AccountsOk := fun j => by
  rw [State.acct_admitPage]
  split
  · exact (h j).admitPage _
  · exact h j

/-- R26, R35: every change keeps the accounts' figures in range and their overrun flags exact. -/
theorem Change.keeps_accountsOk {s t : State} (hc : Change s t) (h : s.AccountsOk) : t.AccountsOk := by
  cases hc
  case ending k tag => exact h.endEntry k tag
  case admission src hdr i r serial _ _ _ => exact h.admitPage i src hdr r serial
  case account i a may => exact h.setAcct (may.ok (h i))
  case link a new r _ _ => exact h.refsMoved (.linked s a r.account new)
  case adds r _ =>
    exact ((h.refsMoved (.of_accounts rfl)).refsMoved (.raiseRefs _ r.account)).refsMoved (.completeOp _)
  case removes a _ _ => exact (h.refsMoved (.removeRecord s a)).refsMoved (.completeOp _)
  case restarts o _ u _ => exact fun i => unusedAccount_ok
  all_goals exact h.refsMoved (.of_accounts (by simp))

/-- Settles O56: every change keeps the accounts in order. -/
theorem stepsKeepTheOverrunRule : Obligations.StepsKeepTheOverrunRule :=
  fun _ _ => step_keeps fun _ _ => Change.keeps_accountsOk

end Sys2Proof.Machine
end

/-! ## Held of every account exact (R34) -/

section

namespace Sys2Proof.Machine

/-! ### What the live entries hold of an account -/

/-- R34: the sum of the charges of those of the entries `es` that name account `i`. -/
def heldBy (es : List Entry) (i : Nat) : Nat :=
  ((es.filter (fun e => e.account = i)).map (fun e => e.charge)).sum

theorem State.HeldOk.held_eq {s : State} (h : s.HeldOk) (i : Nat) :
    (s.acct i).held = heldBy s.liveEntries i := h.held i

theorem heldBy_cons (e : Entry) (es : List Entry) (i : Nat) :
    heldBy (e :: es) i = if e.account = i then e.charge + heldBy es i else heldBy es i := by
  simp only [heldBy, List.filter_cons, decide_eq_true_eq]
  split <;> rfl

theorem heldBy_perm {es fs : List Entry} (h : es.Perm fs) (i : Nat) : heldBy es i = heldBy fs i :=
  ((h.filter _).map _).sum_eq

theorem heldBy_le {es : List Entry} (h : ∀ e ∈ es, e.charge ≤ 4095) (i : Nat) :
    heldBy es i ≤ es.length * 4095 := by
  refine (List.sum_le_card_nsmul _ 4095 fun c hc => ?_).trans ?_
  · obtain ⟨e, he, rfl⟩ := List.mem_map.1 hc
    exact h e (List.mem_of_mem_filter he)
  · rw [List.length_map, smul_eq_mul]
    exact Nat.mul_le_mul_right _ (List.length_filter_le ..)

/-- R85: at most 256 entries are live. -/
theorem State.liveEntries_length_le (s : State) : s.liveEntries.length ≤ 256 :=
  (List.length_filterMap_le ..).trans (by simp [slotIndices])

/-- R46: no page is charged more than 4,095. -/
theorem State.chargeFor_le (s : State) (cls : Nat) (c : Chan) (n : Nat) (prio : Priority) :
    s.chargeFor cls c n prio ≤ 4095 := Nat.min_le_left ..

/-! ### Changes -/

/-- The same live entries and the same held amounts keep held exact. -/
theorem State.HeldOk.congr {s t : State} (h : s.HeldOk) (slots : t.slots = s.slots)
    (held : ∀ i, (t.acct i).held = (s.acct i).held) : t.HeldOk := by
  have live := State.liveEntries_of_slots slots
  exact {
    slots := h.slots.congr slots
    charges := by rw [live]; exact h.charges
    held := fun i => by rw [held, live]; exact h.held i }

theorem State.HeldOk.refsMoved {s t : State} (h : s.HeldOk) (slots : t.slots = s.slots)
    (moved : s.RefsMoved t) : t.HeldOk :=
  h.congr slots fun i => by
    obtain ⟨n, hi, -⟩ := moved i
    rw [hi]

/-- A rewritten entry holds what the entry before it held. -/
theorem State.HeldOk.setEntry {s : State} (h : s.HeldOk) {t : Tag} {e e' : Entry}
    (he : s.entry t = some e) (same : e.SameCore e') : (s.setEntry t.slot e').HeldOk := by
  obtain ⟨rest, hold, hnew⟩ := State.liveEntries_setEntry h.slots e' he
  refine { slots := h.slots.setEntry he e', charges := fun f hf => ?_, held := fun i => ?_ }
  · rcases List.mem_cons.1 (hnew.mem_iff.1 hf) with rfl | hf'
    · rw [same.charge]
      exact h.charges e (hold.mem_iff.2 List.mem_cons_self)
    · exact h.charges f (hold.mem_iff.2 (List.mem_cons_of_mem _ hf'))
  · calc (s.acct i).held = heldBy (e :: rest) i := (h.held_eq i).trans (heldBy_perm hold i)
      _ = heldBy (e' :: rest) i := by rw [heldBy_cons, heldBy_cons, same.account, same.charge]
      _ = heldBy (s.setEntry t.slot e').liveEntries i := (heldBy_perm hnew i).symm

/-- R34, R91: an ended page's charge leaves held with its entry. -/
theorem State.HeldOk.endEntry {s : State} (h : s.HeldOk) (k : Ending) (t : Tag) :
    (s.endEntry k t).HeldOk := by
  cases he : s.entry t with
  | none => rw [State.endEntry_of_none k he]; exact h
  | some e =>
    have live := State.liveEntries_endEntry h.slots k he
    refine { slots := h.slots.endEntry k t
             charges := fun f hf => h.charges f (live.mem_iff.2 (List.mem_cons_of_mem _ hf))
             held := fun i => ?_ }
    change ((s.endEntry k t).acct i).held = heldBy (s.endEntry k t).liveEntries i
    have before := (h.held_eq i).trans (heldBy_perm live i)
    rw [heldBy_cons] at before
    rw [State.acct_endEntry k he, State.acct_endingEvent_held]
    split at before
    · next ha => rw [if_pos ha, before, Nat.add_sub_cancel_left]
    · next ha => rw [if_neg ha, before]

/-- R34, R82: an admitted page's charge joins held with its entry; held is far from the end of its range. -/
theorem State.HeldOk.admitPage {s : State} (h : s.HeldOk) {i : Nat} {hdr : Header} {r : Subscriber}
    {serial : Nat} (src : Source) (hv : s.verdict hdr = .admitted i r serial) :
    (s.admitPage i src hdr r serial).HeldOk := by
  let e := s.newEntry src hdr r serial
  have live : (s.admitPage i src hdr r serial).liveEntries.Perm (e :: s.liveEntries) :=
    State.liveEntries_admitPage src hv
  have charge : e.charge ≤ 4095 := s.chargeFor_le ..
  refine { slots := h.slots.admitPage src hv, charges := fun f hf => ?_, held := fun j => ?_ }
  · rcases List.mem_cons.1 (live.mem_iff.1 hf) with rfl | hf'
    · exact charge
    · exact h.charges f hf'
  · change ((s.admitPage i src hdr r serial).acct j).held = heldBy _ j
    rw [heldBy_perm live, heldBy_cons, ← h.held_eq, State.acct_admitPage]
    change _ = if r.account = j then _ else _
    split
    · have room := (h.held_eq j).le.trans (heldBy_le h.charges j)
      have length := s.liveEntries_length_le
      change min 16777215 ((s.acct j).held + e.charge) = e.charge + (s.acct j).held
      omega
    · rfl

/-- R3: after a power-on reset nothing is held. -/
theorem State.restarted_heldOk (o : Option Operation) (u : State) : (State.restarted o u).HeldOk :=
  have live : (State.restarted o u).liveEntries = [] := State.liveEntries_of_no_slots rfl
  { slots := State.slotsOk_of_no_slots rfl
    charges := fun e he => by rw [live] at he; cases he
    held := fun i => by rw [live]; rfl }

/-- R34: every change keeps held the sum of the charges of the live entries. -/
theorem Change.keeps_heldOk {s t : State} (hc : Change s t) (h : s.HeldOk) : t.HeldOk := by
  cases hc
  case entry tag e e' he same => exact h.setEntry he same
  case ending k tag => exact h.endEntry k tag
  case admission src hdr i r serial _ _ hv => exact h.admitPage src hv
  case account i a may =>
    refine h.congr rfl fun j => ?_
    by_cases hj : j = i
    · rw [hj, State.acct_setAcct, may.held]
    · rw [State.acct_setAcct_ne s a hj]
  case link a new r _ _ => exact h.refsMoved (by simp) (.linked s a r.account new)
  case adds r _ =>
    exact h.refsMoved (by simp) (.trans (.trans (.of_accounts rfl) (.raiseRefs _ r.account)) (.completeOp _))
  case removes a _ _ => exact h.refsMoved (by simp) (.trans (.removeRecord s a) (.completeOp _))
  case restarts o _ u _ => exact State.restarted_heldOk o u
  all_goals exact h.refsMoved (by simp) (.of_accounts (by simp))

/-- Settles O57: every change keeps held exact. -/
theorem stepsKeepHeldExact : Obligations.StepsKeepHeldExact :=
  fun _ _ => step_keeps fun _ _ => Change.keeps_heldOk

end Sys2Proof.Machine
end

/-! ## The account commands (R27 to R33) -/

section

namespace Sys2Proof.Machine

/-! ### Arguments of two and of three bytes -/

theorem beValue_two (b0 b1 : Byte) : beValue [b0, b1] = 256 * b0.toNat + b1.toNat := by
  simp only [beValue, List.foldl_cons, List.foldl_nil]
  omega

/-- R30: a balance beyond an end of its range stops there. -/
theorem clampBalance_eq (v : Int) :
    clampBalance v = if v < -8388608 then -8388608 else if 8388607 < v then 8388607 else v := by
  simp only [clampBalance, Config.balanceMin, Config.balanceMax]
  split_ifs <;> omega

/-! ### The state that an account command leaves -/

/-- R162, R165: the state on which a command without arguments is taken at its code: the latch and the
result buffer are empty. -/
def State.codeTaken (s : State) : State :=
  s.setPort { s.port.paired with latch := noDesig, result := [], readIdx := 0, ready := false }

/-- R35: a command that commits account `i` at its last byte writes that account alone, and raises OVERRUN
when its flag goes from clear to set. -/
theorem State.commit_answered (s : State) (i : Nat) (a : Account) (bs : List Byte) :
    let t := (s.lastTaken.commit i a).answer .ok bs
    t.acct i = a.recompute ∧ (∀ j, j ≠ i → t.acct j = s.acct j) ∧
    t = { (if a.balance < -(a.cl : Int) ∧ (s.acct i).overrun = false then
             (s.afterLast (0x00 :: bs)).raise .overrun
           else s.afterLast (0x00 :: bs)) with accounts := t.accounts } := by
  intro t
  have rises : (a.recompute.overrun && !(s.lastTaken.acct i).overrun) = true ↔
      a.balance < -(a.cl : Int) ∧ (s.acct i).overrun = false := by
    rw [Bool.and_eq_true, Bool.not_eq_true']
    exact and_congr_left' decide_eq_true_iff
  refine ⟨State.acct_commit .., fun j hj => State.acct_commit_ne s.lastTaken a hj, ?_⟩
  simp only [t, State.commit, rises]
  split <;> rfl

/-- A command that writes account `i` at its code writes that account alone. -/
theorem State.setAcct_answered (s : State) (i : Nat) (a : Account) (bs : List Byte) :
    let t := (s.codeTaken.setAcct i a).answer .ok bs
    t.acct i = a ∧ (∀ j, j ≠ i → t.acct j = s.acct j) ∧
    t = { s.afterCode (0x00 :: bs) with accounts := t.accounts } :=
  ⟨State.acct_setAcct .., fun _ hj => State.acct_setAcct_ne s.codeTaken a hj, rfl⟩

/-! ### OPEN ACCOUNT, WRITE LIMIT and ADJUST BALANCE -/

/-- R28 -/
theorem openAccount_taken {s : State} {b0 b1 b2 c0 c1 : Byte} {i : Nat}
    (harr : s.lastArrives .openAccount [b0, b1, b2, c0] c1 (acctDesig i)) :
    exec (.openAccount (.last c1)) s = .next
      (if (s.acct i).state = .unused then
        (s.lastTaken.commit i { s.acct i with
          state := .opened, balance := signedValue (beValue [b0, b1, b2]), cl := beValue [c0, c1]
          mark := true }).answer .ok []
      else s.afterLast [0x05]) := by
  change Host.Outcome.next (portLast .openAccount takeOpenAccount c1 s) = _
  rw [portLast_taken harr (.inr rfl)]
  rfl

/-- R31 -/
theorem writeLimit_taken {s : State} {c0 c1 : Byte} {i : Nat}
    (harr : s.lastArrives .writeLimit [c0] c1 (acctDesig i)) :
    exec (.writeLimit (.last c1)) s = .next
      (if (s.acct i).state = .unused then s.afterLast [0x05]
      else (s.lastTaken.commit i { s.acct i with cl := beValue [c0, c1], mark := true }).answer .ok []) := by
  change Host.Outcome.next (portLast .writeLimit takeWriteLimit c1 s) = _
  rw [portLast_taken harr (.inr rfl)]
  rfl

/-- R30 -/
theorem adjustBalance_taken {s : State} {b0 b1 b2 : Byte} {i : Nat}
    (harr : s.lastArrives .adjustBalance [b0, b1] b2 (acctDesig i)) :
    let sum := (s.acct i).balance + signedValue (beValue [b0, b1, b2])
    exec (.adjustBalance (.last b2)) s = .next
      (if (s.acct i).state = .unused then s.afterLast [0x05]
      else (s.lastTaken.commit i { s.acct i with balance := clampBalance sum, mark := true }).answer .ok
        (signedBytes (clampBalance sum) ++ [flagByte (clampBalance sum ≠ sum)])) := by
  change Host.Outcome.next (portLast .adjustBalance takeAdjustBalance b2 s) = _
  rw [portLast_taken harr (.inr rfl)]
  rfl

theorem flagByte_ne (v w : Int) : flagByte (v ≠ w) = if v = w then 0 else 1 := by
  by_cases h : v = w <;> simp [flagByte, h]

/-- Settles O19: each of the three commands is a commit of its account. -/
theorem accountFigures : Obligations.AccountFigures := by
  refine ⟨⟨fun s b0 b1 b2 c0 c1 i harr => ?_, fun s c0 c1 i harr => ?_⟩, fun s b0 b1 b2 i harr => ?_⟩
  · intro n bal cl
    have taken := openAccount_taken harr
    rw [beValue_three, beValue_two] at taken
    exact ⟨fun hs => by rw [taken, if_neg hs],
      fun hs => ⟨_, taken.trans (congrArg _ (if_pos hs)), s.commit_answered i { s.acct i with
        state := .opened, balance := bal, cl := cl, mark := true } []⟩⟩
  · intro a cl
    have taken := writeLimit_taken harr
    rw [beValue_two] at taken
    exact ⟨fun hs => by rw [taken, if_pos hs],
      fun hs => ⟨_, taken.trans (congrArg _ (if_neg hs)),
        s.commit_answered i { a with cl := cl, mark := true } []⟩⟩
  · intro a n sum bal
    have taken := adjustBalance_taken harr
    simp only [beValue_three, flagByte_ne, clampBalance_eq] at taken
    exact ⟨fun hs => by rw [taken, if_pos hs],
      fun hs => ⟨_, taken.trans (congrArg _ (if_neg hs)),
        s.commit_answered i { a with balance := bal, mark := true } _⟩⟩

/-! ### BAR, UNBAR, CLOSE ACCOUNT and READ ACCOUNT -/

/-- R29 -/
theorem takeBar_eq (f : Frame) (s : State) :
    takeBar f s =
      if (s.acct f.acct).state = .unused then s.answer .state []
      else if (s.acct f.acct).state = .barred then s.answer .ok []
      else (s.setAcct f.acct { s.acct f.acct with state := .barred, mark := true }).answer .ok [] := by
  unfold takeBar
  cases (s.acct f.acct).state <;> rfl

/-- R29 -/
theorem takeUnbar_eq (f : Frame) (s : State) :
    takeUnbar f s =
      if (s.acct f.acct).state = .unused then s.answer .state []
      else if (s.acct f.acct).state = .opened then s.answer .ok []
      else (s.setAcct f.acct { s.acct f.acct with state := .opened, mark := true }).answer .ok [] := by
  unfold takeUnbar
  cases (s.acct f.acct).state <;> rfl

section
variable {s : State} {i : Nat}

theorem bar_taken (harr : s.codeArrives .bar (acctDesig i)) :
    exec .bar s = .next
      (if (s.acct i).state = .unused then s.afterCode [0x05]
      else if (s.acct i).state = .barred then s.afterCode [0x00]
      else (s.codeTaken.setAcct i { s.acct i with state := .barred, mark := true }).answer .ok []) := by
  change Host.Outcome.next (portCode .bar takeBar s) = _
  rw [portCode_operative harr, takeBar_eq]
  rfl

theorem unbar_taken (harr : s.codeArrives .unbar (acctDesig i)) :
    exec .unbar s = .next
      (if (s.acct i).state = .unused then s.afterCode [0x05]
      else if (s.acct i).state = .opened then s.afterCode [0x00]
      else (s.codeTaken.setAcct i { s.acct i with state := .opened, mark := true }).answer .ok []) := by
  change Host.Outcome.next (portCode .unbar takeUnbar s) = _
  rw [portCode_operative harr, takeUnbar_eq]
  rfl

/-- R32 -/
theorem closeAccount_taken (harr : s.codeArrives .closeAccount (acctDesig i)) :
    exec .closeAccount s = .next
      (if (s.acct i).state = .unused then s.afterCode [0x05]
      else if 0 < (s.acct i).refs || 0 < (s.acct i).held then s.afterCode [0x08]
      else (s.codeTaken.setAcct i unusedAccount).answer .ok (finalBytes (s.acct i))) := by
  change Host.Outcome.next (portCode .closeAccount takeCloseAccount s) = _
  rw [portCode_operative harr]
  rfl

/-- R33 -/
theorem readAccount_taken (harr : s.codeArrives .readAccount (acctDesig i)) :
    exec .readAccount s = .next (s.afterCode (0x00 :: accountBytes (s.acct i))) := by
  change Host.Outcome.next (portCode .readAccount takeReadAccount s) = _
  rw [portCode_operative harr]
  rfl

end

/-- Settles O20: each of the four commands by the state of its account. -/
theorem barCloseAndReadAccount : Obligations.BarCloseAndReadAccount := by
  refine ⟨fun s i => ⟨fun harr => ?_, fun harr => ?_⟩, fun s i => ⟨fun harr => ?_, fun harr => ?_⟩,
    rfl, fun _ => rfl⟩
  · rw [bar_taken harr]
    exact ⟨fun hs => by rw [if_pos hs], fun hs => by rw [if_neg (by rw [hs]; decide), if_pos hs],
      fun hs => ⟨_, by rw [if_neg (by rw [hs]; decide), if_neg (by rw [hs]; decide)],
        s.setAcct_answered i _ []⟩⟩
  · rw [unbar_taken harr]
    exact ⟨fun hs => by rw [if_pos hs], fun hs => by rw [if_neg (by rw [hs]; decide), if_pos hs],
      fun hs => ⟨_, by rw [if_neg (by rw [hs]; decide), if_neg (by rw [hs]; decide)],
        s.setAcct_answered i _ []⟩⟩
  · rw [closeAccount_taken harr]
    refine ⟨fun hs => by rw [if_pos hs], fun hs hr => ?_, fun hs hr hh => ?_⟩
    · rw [if_neg hs, if_pos (by simpa using hr)]
    · exact ⟨_, by rw [if_neg hs, if_neg (by simp [hr, hh])],
        s.setAcct_answered i unusedAccount (finalBytes (s.acct i))⟩
  · rw [readAccount_taken harr]
    rfl

end Sys2Proof.Machine
end

/-! ## TABLE POINTER, TABLE READ and TABLE WRITE (R40, R41) -/

section

namespace Sys2Proof.Machine

/-! ### The address map (R172) -/

theorem fieldAt_covers_of_lt :
    ∀ a, a < 0x284 → ∀ f ∈ fieldAt a, f.first ≤ a ∧ a < f.first + f.width := by
  decide +kernel

/-- R172: an assigned address is one of its field's bytes. -/
theorem fieldAt_covers {a : Nat} {f : Field} (h : fieldAt a = some f) :
    f.first ≤ a ∧ a < f.first + f.width :=
  fieldAt_covers_of_lt a (lt_of_fieldAt h) f h

/-- R172: the field that holds an address: its first address and its width. -/
def tableField (a : Nat) : Option (Nat × Nat) :=
  if a < 0x34 then some (a, 1)
  else if a < 0x38 then some (a - a % 2, 2)
  else if 0x40 ≤ a ∧ a < 0xC0 then
    (if a % 16 < 3 then some (a, 1) else if a % 16 < 9 then some (a - (a % 16 + 1) % 2, 2) else none)
  else if 0xC0 ≤ a ∧ a < 0x140 then
    (if a % 16 = 0 ∨ a % 16 = 7 ∨ a % 16 = 8 then some (a, 1)
     else if a % 16 < 7 then some (a - (a % 16 - 1) % 3, 3) else none)
  else if a = 0x140 ∨ a = 0x141 ∨ (0x150 ≤ a ∧ a < 0x158) ∨ (0x16C ≤ a ∧ a < 0x172) ∨
      (0x180 ≤ a ∧ a < 0x188) then some (a, 1)
  else if (0x160 ≤ a ∧ a < 0x16C) ∨ (0x200 ≤ a ∧ a < 0x220) ∨ (0x240 ≤ a ∧ a < 0x260) ∨
      (0x280 ≤ a ∧ a < 0x284) then some (a - a % 2, 2)
  else none

theorem tableField_eq_of_lt :
    ∀ a, a < 0x284 → tableField a = (fieldAt a).map (fun f => (f.first, f.width)) := by
  decide +kernel

/-- R172: the address map written out in `tableField` is the model's. -/
theorem tableField_eq (a : Nat) : tableField a = (fieldAt a).map (fun f => (f.first, f.width)) := by
  by_cases ha : a < 0x284
  · exact tableField_eq_of_lt a ha
  · rw [fieldAt_end (Nat.le_of_not_lt ha)]
    unfold tableField
    repeat rw [if_neg (by omega)]
    rfl

theorem fieldAt_eq_none {a : Nat} (h : tableField a = none) : fieldAt a = none := by
  rwa [tableField_eq, Option.map_eq_none_iff] at h

/-- R40: the byte that a read of address `a` returns, its field being that of the address map. -/
def State.byteInForce (s : State) (a : Nat) : Byte :=
  match tableField a with
  | none => 0
  | some (first, width) => BitVec.ofNat 8 (s.setting first / 256 ^ (width - 1 - (a - first)))

/-- R168: the bytes of a number, most significant first. -/
theorem beBytes_getD (v : Nat) {w k : Nat} (hk : k < w) :
    (beBytes w v).getD k 0 = BitVec.ofNat 8 (v / 256 ^ (w - 1 - k)) := by
  induction w generalizing k with
  | zero => cases hk
  | succ w ih =>
    cases k with
    | zero => rfl
    | succ k =>
      rw [beBytes, List.getD_cons_succ, ih (Nat.lt_of_succ_lt_succ hk)]
      congr 3
      omega

theorem State.tableByte_eq (s : State) (a : Nat) : s.tableByte a = s.byteInForce a := by
  unfold State.tableByte State.byteInForce
  rw [tableField_eq]
  cases hf : fieldAt a with
  | none => rfl
  | some f =>
    have covers := fieldAt_covers hf
    exact beBytes_getD _ (by omega)

/-! ### A field taking effect on the state of a command taken at its last byte

The step of TABLE WRITE applies its data bytes with the frame already closed. A field that takes effect
touches the Command Port in its notice causes only, so closing the frame may as well come after. -/

theorem State.raise_lastTaken (s : State) (c : Cause) : s.lastTaken.raise c = (s.raise c).lastTaken := by
  unfold State.lastTaken State.raise State.setPort Port.paired
  dsimp only
  split <;> rfl

theorem State.recomputePool_lastTaken (s : State) :
    s.lastTaken.recomputePool = s.recomputePool.lastTaken := by
  have up : ∀ hold, { s.lastTaken.raise .poolHold with poolHold := hold } =
      State.lastTaken { s.raise .poolHold with poolHold := hold } := fun hold => by
    rw [State.raise_lastTaken]
    rfl
  unfold State.recomputePool
  dsimp only
  rw [apply_ite State.lastTaken]
  exact if_congr .rfl (up _) rfl

theorem State.moveLevel_lastTaken (s : State) (c : Chan) (l : Nat) :
    s.lastTaken.moveLevel c l = (s.moveLevel c l).lastTaken := by
  unfold State.moveLevel
  rw [apply_ite State.lastTaken]
  exact if_congr .rfl rfl (State.raise_lastTaken (s.setMon c _) .level)

theorem State.moveLevels_lastTaken (s : State) (g : Chan → Nat) :
    s.lastTaken.moveLevels g = (s.moveLevels g).lastTaken := by
  rw [State.moveLevels, State.moveLevel_lastTaken, State.moveLevel_lastTaken]
  rfl

theorem State.writeLow_lastTaken (s : State) (v : Nat) :
    s.lastTaken.writeLow v = (s.writeLow v).lastTaken := by
  rw [State.writeLow_eq, State.writeLow_eq, ← State.recomputePool_lastTaken, apply_ite State.lastTaken]
  rfl

theorem State.writeHigh_lastTaken (s : State) (v : Nat) :
    s.lastTaken.writeHigh v = (s.writeHigh v).lastTaken :=
  State.recomputePool_lastTaken (s.setSetting highAddr (max v s.lowMark))

theorem State.writeT1_lastTaken (s : State) (a v : Nat) :
    s.lastTaken.writeT1 a v = (s.writeT1 a v).lastTaken := by
  rw [State.writeT1_eq, State.writeT1_eq, apply_ite State.lastTaken]
  rfl

theorem State.writeEnable_lastTaken (s : State) (l v : Nat) :
    s.lastTaken.writeEnable l v = (s.writeEnable l v).lastTaken := by
  rw [State.writeEnable_eq, State.writeEnable_eq]
  exact State.moveLevels_lastTaken (s.setSetting (enableAddr l) v) _

theorem State.writeBoot_lastTaken (s : State) (v : Nat) :
    s.lastTaken.writeBoot v = (s.writeBoot v).lastTaken := by
  rw [State.writeBoot_eq, State.writeBoot_eq]
  exact State.moveLevels_lastTaken (s.setSetting bootAddr v) _

theorem State.writeThreshold_lastTaken (s : State) (a v : Nat) :
    s.lastTaken.writeThreshold a v = (s.writeThreshold a v).lastTaken := by
  unfold State.writeThreshold
  split <;> rfl

theorem State.writeField_lastTaken (s : State) (f : Field) (v : Nat) :
    s.lastTaken.writeField f v = (s.writeField f v).lastTaken := by
  simp only [State.writeField, apply_ite State.lastTaken, State.writeLow_lastTaken,
    State.writeHigh_lastTaken, State.writeT1_lastTaken, State.writeEnable_lastTaken,
    State.writeBoot_lastTaken, State.writeThreshold_lastTaken]
  rfl

theorem State.writeTableByte_lastTaken (s : State) (b : Byte) :
    s.lastTaken.writeTableByte b = (s.writeTableByte b).lastTaken := by
  cases hf : fieldAt s.tablePtr with
  | none =>
    have hf' : fieldAt s.lastTaken.tablePtr = none := hf
    simp only [State.writeTableByte, hf, hf']
    rfl
  | some f =>
    have hf' : fieldAt s.lastTaken.tablePtr = some f := hf
    by_cases hw : f.width = 1
    · rw [State.writeTableByte_of_byte b hf hw, State.writeTableByte_of_byte b hf' hw]
      exact State.writeField_lastTaken { s with tablePtr := nextPtr s.tablePtr } f _
    by_cases hp : s.tablePtr = f.first
    · rw [State.writeTableByte_of_first b hf hw hp, State.writeTableByte_of_first b hf' hw hp]
      rfl
    by_cases hst : ∀ st, s.staging = some st →
        st.first ≠ f.first ∨ st.bytes.length ≠ s.tablePtr - f.first
    · rw [State.writeTableByte_of_unstaged b hf hw hp hst, State.writeTableByte_of_unstaged b hf' hw hp hst]
      rfl
    · push Not at hst
      obtain ⟨⟨first, bs⟩, hst, rfl, hlen⟩ := hst
      have joined : f.first + bs.length = s.tablePtr :=
        (congrArg _ hlen).trans (Nat.add_sub_cancel' (fieldAt_covers hf).1)
      rw [State.writeTableByte_of_staged b hf hw hp hst joined,
        State.writeTableByte_of_staged b hf' hw hp hst joined, apply_ite State.lastTaken]
      exact if_congr .rfl (State.writeField_lastTaken
        { s with tablePtr := nextPtr s.tablePtr, staging := none } f _) rfl

theorem State.foldl_writeTableByte_lastTaken (bs : List Byte) (s : State) :
    bs.foldl State.writeTableByte s.lastTaken = (bs.foldl State.writeTableByte s).lastTaken := by
  induction bs generalizing s with
  | nil => rfl
  | cons b rest ih => rw [List.foldl_cons, List.foldl_cons, State.writeTableByte_lastTaken, ih]

/-! ### The three commands -/

/-- R40 -/
theorem tablePointer_taken {s : State} {b0 b1 : Byte} (harr : s.lastArrives .tablePointer [b0] b1 noDesig) :
    exec (.tablePointer (.last b1)) s = .next
      (if 2047 < 256 * b0.toNat + b1.toNat then s.afterLast [0x07]
      else { s.afterLast [0x00] with tablePtr := 256 * b0.toNat + b1.toNat, staging := none }) := by
  have taken : exec (.tablePointer (.last b1)) s = .next
      (if beValue [b0, b1] < 2048 then
        { s.afterLast [0x00] with tablePtr := beValue [b0, b1], staging := none }
      else s.afterLast [0x07]) := by
    change Host.Outcome.next (portLast .tablePointer takeTablePointer b1 s) = _
    rw [portLast_taken harr (.inr rfl)]
    rfl
  rw [taken, beValue_two, ← ite_not]
  simp only [Nat.not_lt, Nat.succ_le_iff]

/-- A count byte is outside 1..64. -/
theorem count_out_of_range {n : Byte} :
    (n = 0 ∨ 64 < n.toNat) ↔ ¬ (decide (1 ≤ n.toNat) && decide (n.toNat ≤ 64)) = true := by
  rw [byte_eq_zero_iff, Bool.and_eq_true, decide_eq_true_eq, decide_eq_true_eq]
  omega

/-- R40 -/
theorem tableRead_taken {s : State} {n : Byte} (harr : s.lastArrives .tableRead [] n noDesig) :
    exec (.tableRead (.last n)) s = .next
      (if n = 0 ∨ 64 < n.toNat then s.afterLast [0x07]
      else
        { s.afterLast (0x00 :: (List.range n.toNat).map (fun k => s.byteInForce ((s.tablePtr + k) % 2048)))
          with tablePtr := (s.tablePtr + n.toNat) % 2048, staging := none }) := by
  change Host.Outcome.next (portLast .tableRead takeTableRead n s) = _
  rw [portLast_taken harr (.inr rfl)]
  simp only [count_out_of_range, ite_not, ← State.tableByte_eq]
  rfl

/-- R41: a frame of TABLE WRITE has its last byte with its count of data bytes, or with a count out of
range. -/
theorem argsComplete_tableWrite {n : Byte} {bs : List Byte} :
    argsComplete .tableWrite (n :: bs) = true ↔
      bs.length = if n = 0 ∨ 64 < n.toNat then 0 else n.toNat := by
  have complete : argsComplete .tableWrite (n :: bs) = decide (bs.length + 1 =
      if (decide (1 ≤ n.toNat) && decide (n.toNat ≤ 64)) = true then 1 + n.toNat else 1) := rfl
  simp only [complete, count_out_of_range, ite_not, decide_eq_true_eq]
  split <;> omega

/-- R41: a count outside 1..64 ends the frame at once. -/
theorem tableWrite_refused {s : State} {n : Byte} (harr : s.lastArrives .tableWrite [] n noDesig)
    (idle : s.op = none) (hn : n = 0 ∨ 64 < n.toNat) :
    exec (.tableWrite (.last n)) s = .next (s.afterLast [0x07]) := by
  change Host.Outcome.next (portLast .tableWrite takeTableWrite n s) = _
  rw [portLast_taken harr (.inl idle) (argsComplete_tableWrite.2 (if_pos hn).symm)]
  exact congrArg Host.Outcome.next (if_neg (count_out_of_range.1 hn))

/-- R41: with its last data byte the command applies them all. -/
theorem tableWrite_taken {s : State} {n b : Byte} {bs : List Byte}
    (harr : s.lastArrives .tableWrite (n :: bs) b noDesig) (idle : s.op = none)
    (hlen : n.toNat = bs.length + 1) (hn : n.toNat ≤ 64) :
    exec (.tableWrite (.last b)) s =
      .next (((bs ++ [b]).foldl State.writeTableByte s).afterLast [0x00]) := by
  have inRange : ¬ (n = 0 ∨ 64 < n.toNat) := by
    rw [byte_eq_zero_iff]
    omega
  have complete : argsComplete .tableWrite (n :: (bs ++ [b])) = true := by
    rw [argsComplete_tableWrite, if_neg inRange, hlen, List.length_append, List.length_singleton]
  have taken : takeTableWrite
      { cmd := .tableWrite, args := n :: (bs ++ [b]), misq := false, desig := noDesig, outcome := .none }
      s.lastTaken = ((bs ++ [b]).foldl State.writeTableByte s.lastTaken).answer .ok [] :=
    if_pos (not_not.1 (mt count_out_of_range.2 inRange))
  change Host.Outcome.next (portLast .tableWrite takeTableWrite b s) = _
  rw [portLast_taken harr (.inl idle) complete]
  rw [State.foldl_writeTableByte_lastTaken] at taken
  exact congrArg Host.Outcome.next taken

/-! ### One byte at a field of one byte -/

/-- R172: the ranges of the fields of one byte whose writing changes that setting alone. -/
def byteRange (p : Nat) : Option (Nat × Nat) :=
  if p < 0x30 then
    some (if p % 6 = 1 then (1, 4) else if p % 6 = 2 ∨ p % 6 = 4 then (0, 63)
      else if p % 6 = 5 then (0, 8) else (0, 255))
  else if p < 0x34 then some (16, 64)
  else if 0x40 ≤ p ∧ p < 0xC0 ∧ p % 16 = 0 then some (1, 15)
  else if 0xC0 ≤ p ∧ p < 0x140 ∧ p % 16 = 0 then some (0, 1)
  else if 0xC0 ≤ p ∧ p < 0x140 ∧ p % 16 = 7 ∨ p = 0x140 then some (0, 2)
  else if 0xC0 ≤ p ∧ p < 0x140 ∧ p % 16 = 8 ∨ p = 0x141 then some (0, 15)
  else if 0x150 ≤ p ∧ p < 0x158 then some (if p % 2 = 0 then (0, 1) else (0, 15))
  else if p = 0x16C ∨ p = 0x16D then some (1, 15)
  else if 0x180 ≤ p ∧ p < 0x188 ∧ p % 2 = 1 then some (1, 60)
  else none

theorem byteRange_fieldAt :
    ∀ p, p < 0x188 → ∀ q ∈ byteRange p,
      fieldAt p = some { first := p, width := 1, lo := q.1, hi := q.2, dflt := settingDefault p } := by
  decide +kernel

/-- R172: a field of one byte is the one that the address map gives. -/
theorem fieldAt_of_byteRange {p lo hi : Nat} (h : byteRange p = some (lo, hi)) :
    fieldAt p = some { first := p, width := 1, lo := lo, hi := hi, dflt := settingDefault p } := by
  refine byteRange_fieldAt p ?_ (lo, hi) h
  by_contra hp
  have none : byteRange p = none := by
    unfold byteRange
    repeat rw [if_neg (by omega)]
  rw [none] at h
  cases h

theorem byteRange_t1 : ∀ p, p < 8 → byteRange (profileAddr p 1) = none := by decide
theorem byteRange_t2 : ∀ p, p < 8 → byteRange (profileAddr p 2) = none := by decide
theorem byteRange_enable : ∀ l, l ≤ 3 → 1 ≤ l → byteRange (enableAddr l) = none := by decide
theorem byteRange_threshold : ∀ n : LineNo, byteRange (0x180 + 2 * n.val) = none := by decide

/-- R38, R39, R81, R119, R138, R146: such a field takes effect as its setting alone. -/
theorem State.writeField_of_byteRange (s : State) {f : Field} (v : Nat) {q : Nat × Nat}
    (h : byteRange f.first = some q) : s.writeField f v = s.setSetting f.first (f.clamp v) := by
  have other : ∀ {a}, f.first = a → byteRange a ≠ none := fun ha => by rw [← ha, h]; simp
  rcases s.writeField_cases f v with ⟨ha, -⟩ | ⟨ha, -⟩ | ⟨⟨p, hp, ha⟩, -⟩ | ⟨⟨p, hp, ha⟩, -⟩ |
    ⟨l, h1, h3, ha, -⟩ | ⟨ha, -⟩ | ⟨⟨n, ha⟩, -⟩ | ⟨-, -, -, -, -, -, hset⟩
  · exact absurd rfl (other ha)
  · exact absurd rfl (other ha)
  · exact absurd (byteRange_t1 p hp) (other ha)
  · exact absurd (byteRange_t2 p hp) (other ha)
  · exact absurd (byteRange_enable l h3 h1) (other ha)
  · exact absurd rfl (other ha)
  · exact absurd (byteRange_threshold n) (other ha)
  · exact hset

/-- R119: the address of t1 or t2 names its profile. -/
theorem profileAddr_of_mod {p i : Nat} (hlo : 0x40 ≤ p) (hhi : p < 0xC0) (h : p % 16 = i) :
    ∃ k, k < 8 ∧ p = profileAddr k i :=
  ⟨(p - 0x40) / 16, by omega, by simp only [profileAddr]; omega⟩

/-- R119: t1 written raises a t2 below it, and changes nothing else. -/
theorem State.writeT1_frame (s : State) (a v : Nat) :
    let t := s.writeT1 a v
    t.setting a = v ∧ t.setting (a + 1) = max v (s.setting (a + 1)) ∧
      (∀ c, c ≠ a → c ≠ a + 1 → t.setting c = s.setting c) ∧ t = { s with settings := t.settings } := by
  intro t
  have next : a + 1 ≠ a := Nat.succ_ne_self a
  have ht : t = if s.setting (a + 1) < v then (s.setSetting a v).setSetting (a + 1) v
      else s.setSetting a v := s.writeT1_eq a v
  by_cases hlt : s.setting (a + 1) < v
  · rw [ht, if_pos hlt, State.setting_setSetting_ne _ v next.symm, State.setting_setSetting,
      State.setting_setSetting, Nat.max_eq_left hlt.le]
    refine ⟨rfl, rfl, fun c h1 h2 => ?_, rfl⟩
    rw [State.setting_setSetting_ne _ v h2, State.setting_setSetting_ne _ v h1]
  · rw [ht, if_neg hlt, State.setting_setSetting, State.setting_setSetting_ne _ v next,
      Nat.max_eq_right (Nat.le_of_not_lt hlt)]
    exact ⟨rfl, rfl, fun c h1 _ => State.setting_setSetting_ne _ v h1, rfl⟩

section
variable (s : State) (b : Byte)

/-- R41: a byte at an address that is not assigned is dropped. -/
theorem State.writeTableByte_unassigned (h : fieldAt s.tablePtr = none) :
    s.writeTableByte b = { s with tablePtr := nextPtr s.tablePtr } := by
  simp only [State.writeTableByte, h]

/-- R41: a byte at a field of one byte whose writing changes that setting alone. -/
theorem State.writeTableByte_plain {lo hi : Nat} (h : byteRange s.tablePtr = some (lo, hi)) :
    s.writeTableByte b =
      State.setSetting { s with tablePtr := nextPtr s.tablePtr } s.tablePtr (max lo (min hi b.toNat)) := by
  rw [State.writeTableByte_of_byte b (fieldAt_of_byteRange h) rfl, State.writeField_of_byteRange _ _ h]
  rfl

/-- R119: a byte at t1. -/
theorem State.writeTableByte_t1 (hlo : 0x40 ≤ s.tablePtr) (hhi : s.tablePtr < 0xC0)
    (h : s.tablePtr % 16 = 1) :
    s.writeTableByte b =
      State.writeT1 { s with tablePtr := nextPtr s.tablePtr } s.tablePtr (max 1 (min 15 b.toNat)) := by
  obtain ⟨k, hk, hp⟩ := profileAddr_of_mod hlo hhi h
  rw [State.writeTableByte_of_byte b (hp ▸ fieldAt_t1 k hk) rfl, hp]
  rw [hp] at hlo hhi h
  unfold State.writeField
  dsimp only [t1Field]
  rw [if_neg profileAddr_ne_marks.1, if_neg profileAddr_ne_marks.2, if_pos (by simp [*])]
  rfl

/-- R119: a byte at t2. -/
theorem State.writeTableByte_t2 (hlo : 0x40 ≤ s.tablePtr) (hhi : s.tablePtr < 0xC0)
    (h : s.tablePtr % 16 = 2) :
    s.writeTableByte b =
      State.writeT2 { s with tablePtr := nextPtr s.tablePtr } s.tablePtr (max 1 (min 15 b.toNat)) := by
  obtain ⟨k, hk, hp⟩ := profileAddr_of_mod hlo hhi h
  rw [State.writeTableByte_of_byte b (hp ▸ fieldAt_t2 k hk) rfl, hp]
  rw [hp] at hlo hhi h
  unfold State.writeField
  dsimp only [t2Field]
  rw [if_neg profileAddr_ne_marks.1, if_neg profileAddr_ne_marks.2, if_neg (by simp [*]),
    if_pos (by simp [*])]
  rfl

/-- R76: the FIFO threshold of line `n`. -/
def thresholdField (n : LineNo) : Field :=
  { first := 0x180 + 2 * n.val, width := 1, lo := 8, hi := 60, dflt := 48 }

theorem fieldAt_threshold : ∀ n : LineNo, fieldAt (0x180 + 2 * n.val) = some (thresholdField n) := by decide

/-- R62, R76: a byte at a FIFO threshold. -/
theorem State.writeTableByte_threshold {n : LineNo} (hp : s.tablePtr = 0x180 + 2 * n.val) :
    s.writeTableByte b =
      (State.setSetting { s with tablePtr := nextPtr s.tablePtr } s.tablePtr
        (max 8 (min 60 b.toNat))).refillLine n := by
  rw [State.writeTableByte_of_byte b (hp ▸ fieldAt_threshold n) rfl, hp, ← State.writeThreshold_eq]
  unfold State.writeField
  dsimp only [thresholdField]
  rw [if_neg (by unfold lowAddr; omega), if_neg (by unfold highAddr; omega), if_neg (by simp; omega),
    if_neg (by simp; omega), if_neg (by simp; omega), if_neg (by unfold bootAddr; omega),
    if_pos (by simp; omega)]
  rfl

end

/-- R62: the fill hold against a threshold of 8 or more. -/
theorem Line.refill_eq (l : Line) {h : Nat} (hh : 8 ≤ h) :
    l.refill h = { l with
      fillHold := if h ≤ l.fifo.length then true
        else if l.fifo.length + 8 ≤ h then false else l.fillHold } := by
  have below : l.fifo.length ≤ h - 8 ↔ l.fifo.length + 8 ≤ h := Nat.le_sub_iff_add_le hh
  simp only [Line.refill, fillHoldOf, below]

/-- Settles O23: the three commands, and one byte at each kind of address. -/
theorem tablePointerReadAndWrite : Obligations.TablePointerReadAndWrite := by
  refine ⟨⟨fun s b0 b1 harr => tablePointer_taken harr, fun s n harr => tableRead_taken harr⟩,
    ⟨fun s n harr idle hn => tableWrite_refused harr idle hn,
      fun s n b bs harr idle hlen hn => tableWrite_taken harr idle hlen hn⟩, fun s b => ?_⟩
  intro p v u moved range
  refine ⟨fun h => State.writeTableByte_unassigned s b (fieldAt_eq_none h), fun lo hi h => ?_,
    fun hlo hhi h => ?_, fun hlo hhi h => ?_, fun n hp => ?_⟩
  · have hu : u = moved.setSetting p (max lo (min hi v)) := State.writeTableByte_plain s b h
    rw [hu]
    exact ⟨State.setting_setSetting .., fun a ha => State.setting_setSetting_ne _ _ ha, rfl⟩
  · intro t1
    have hu : u = moved.writeT1 p t1 := State.writeTableByte_t1 s b hlo hhi h
    rw [hu]
    exact moved.writeT1_frame p t1
  · have hu : u = moved.writeT2 p (max 1 (min 15 v)) := State.writeTableByte_t2 s b hlo hhi h
    rw [hu]
    exact ⟨State.setting_setSetting .., fun a ha => State.setting_setSetting_ne _ _ ha, rfl⟩
  · intro h l
    have hu : u = (moved.setSetting p h).refillLine n := State.writeTableByte_threshold s b hp
    have hh : (moved.setSetting p h).threshold n = h := by
      rw [State.threshold, ← hp]
      exact State.setting_setSetting ..
    rw [State.refillLine, hh, Line.refill_eq _ (Nat.le_max_left ..)] at hu
    rw [hu]
    exact ⟨State.setting_setSetting .., fun a ha => State.setting_setSetting_ne moved _ ha, rfl⟩

end Sys2Proof.Machine
end

/-! ## The SENT report (R36, R49, R51, R128) -/

section

namespace Sys2Proof.Machine

/-! ### The account of a SENT -/

/-- R36, R51: the account after a SENT that takes the surcharge `sur`, which is 0 at the first attempt. -/
def Account.afterSent (a : Account) (sur : Nat) : Account :=
  let bal : Int := max (-8388608) (a.balance - (sur : Int))
  { a with
    balance := bal, attempts := min 16777215 (a.attempts + 1), charged := min 16777215 (a.charged + sur)
    overrun := decide (bal < -(a.cl : Int)), mark := true }

theorem Account.afterSent_overrun_iff {a : Account} {sur : Nat} :
    (a.afterSent sur).overrun = true ↔ (a.afterSent sur).balance < -(a.cl : Int) := decide_eq_true_iff

theorem Account.takeSurcharge_recompute {a : Account} (h : a.Ok) (sur : Nat) :
    (a.takeSurcharge sur).recompute = a.afterSent sur := by
  have hb : clampBalance (a.balance - sur) = max (-8388608) (a.balance - sur) := by
    have := h.balanceMax
    simp only [clampBalance, Config.balanceMin, Config.balanceMax]
    omega
  simp only [Account.takeSurcharge, Account.recompute, Account.afterSent, overrunOf, hb]
  rfl

theorem Account.countAttempt_eq {a : Account} (h : a.Ok) : a.countAttempt = a.afterSent 0 := by
  have hb : max (-8388608) (a.balance - ((0 : Nat) : Int)) = a.balance := by
    have := h.balanceMin
    omega
  have hc : min 16777215 (a.charged + 0) = a.charged := Nat.min_eq_right h.units.2.1
  have ho : decide (a.balance < -(a.cl : Int)) = a.overrun := by
    rw [Bool.eq_iff_iff, decide_eq_true_eq, h.overrun]
  simp only [Account.countAttempt, Account.afterSent, hb, hc, ho]
  rfl

/-- R35: OVERRUN is raised where the flag goes from clear to set, so not at a first attempt. -/
theorem Account.afterSent_zero_overrun {a : Account} (h : a.Ok) :
    ¬ ((a.afterSent 0).overrun = true ∧ a.overrun = false) := by
  rw [← Account.countAttempt_eq h]
  rintro ⟨hset, hclear⟩
  rw [show a.overrun = true from hset] at hclear
  cases hclear

/-- R36: on an account in order a SENT writes that account, and raises OVERRUN when its flag rises. -/
theorem State.sentEvent_eq {s : State} {i k sc sur : Nat} (h : (s.acct i).Ok)
    (hsur : (if 2 ≤ k then sc else 0) = sur) :
    let a := (s.acct i).afterSent sur
    s.sentEvent i k sc =
      { s.setAcct i a with
        port := { s.port with
          causes := if a.balance < -((s.acct i).cl : Int) ∧ (s.acct i).overrun = false then
              s.port.causes ||| 0x02
            else s.port.causes } } := by
  intro a
  have rises : a.balance < -((s.acct i).cl : Int) ↔ a.overrun = true := Account.afterSent_overrun_iff.symm
  unfold State.sentEvent
  simp only [rises]
  by_cases hk : 2 ≤ k
  · rw [if_pos hk] at hsur ⊢
    rw [State.commit_eq, Account.takeSurcharge_recompute h, hsur]
    simp only [Bool.and_eq_true, Bool.not_eq_true', a]
  · rw [if_neg hk] at hsur ⊢
    subst hsur
    rw [Account.countAttempt_eq h, if_neg (Account.afterSent_zero_overrun h)]
    rfl

/-! ### The report -/

theorem State.slot_congr {s t : State} (h : t.slots = s.slots) (i : Nat) : t.slot i = s.slot i := by
  rw [State.slot, State.slot, h]

section
variable {s : State} {c : Chan} {t : Tag} {e : Entry}

/-- R128: a listed tag of a live entry ON_AIR on the channel is reported of that entry. -/
theorem State.reported_of_onAir (listed : t ∈ (s.chan c).outstanding) (he : s.entry t = some e)
    (onAir : e.state = .onAir) (hc : e.chan = c) : s.reported c t = some e := by
  simp only [State.reported, if_pos listed, he]
  exact if_pos (by simp [onAir, hc])

/-- R49: the surcharge of an attempt. -/
theorem State.surchargeFor_eq {a : Attempt} (ha : e.attempt = some a) (hc : e.chan = c) :
    s.surchargeFor e =
      (s.tariffS e.cls * (if a.tier = 1 then 1 else if a.tier = 2 then 2 else 4) *
        s.m16 (s.mon c).level + 8) / 16 := by
  rw [State.surchargeFor, ha, hc]
  rfl

/-- R127, R128: what becomes of an entry once its attempt is counted, first case first. -/
theorem State.afterSent_eq {a : Attempt} (ha : e.attempt = some a) :
    s.afterSent t e =
      if e.cancelPending = true then s.endEntry .cancelled t
      else if e.expirePending = true ∨ e.deadline ≤ s.time then s.endEntry .expired t
      else if a.oneWay = true ∧ e.attempts = e.maxAttempts then s.endEntry .sentOnly t
      else s.schedule t e .listening (s.windowFor e) := by
  simp only [State.afterSent, State.expiresAtReport, State.deadlineReached, ha, Option.map_some,
    Option.getD_some, Bool.or_eq_true, Bool.and_eq_true, decide_eq_true_eq]

end

/-- Settles O47: the tag is taken off the list, the attempt counted on entry and account, and the entry then
goes by the first case that holds. -/
theorem sentReportsAreCounted : Obligations.SentReportsAreCounted := by
  intro s c b g e a clear t listed he onAir hc ha hok k acc factor sur bal e'
  let s0 := (s.unlist c t).setEntry t.slot e'
  let u := s0.sentEvent e.account k (s.surchargeFor e)
  have hu : u = { s0.setAcct e.account (acc.afterSent sur) with
      port := { s.port with
        causes := if bal < -(acc.cl : Int) ∧ acc.overrun = false then s.port.causes ||| 0x02
          else s.port.causes } } := by
    refine State.sentEvent_eq (s := s0) hok ?_
    rw [State.surchargeFor_eq ha hc]
  have hexec : exec (.sent c b g) s = .next (u.afterSent t e') := by
    change Host.Outcome.next (if s.op = some .autoclear then s else s.reportSent c t) = _
    rw [if_neg clear, State.reportSent, State.reported_of_onAir listed he onAir hc]
    rfl
  have slots : u.slots = (s.setEntry t.slot e').slots := by rw [hu]; rfl
  have accounts : u.accounts = (s.setAcct e.account (acc.afterSent sur)).accounts := by rw [hu]; rfl
  refine ⟨u, (State.slot_congr slots _).trans (s.slot_setEntry t.slot e'),
    fun j hj => (State.slot_congr slots j).trans (s.slot_setEntry_ne e' hj),
    (State.acct_congr accounts _).trans (State.acct_setAcct ..),
    fun j hj => (State.acct_congr accounts j).trans (State.acct_setAcct_ne s _ hj), ?_, ?_⟩
  · rw [hu]; rfl
  · have time : u.time = s.time := by rw [hu]; rfl
    rw [hexec, State.afterSent_eq (e := e') ha, time]

end Sys2Proof.Machine
end

/-! ## The acceptance charge (R44 to R46) and the listen window (R54 to R56) -/

section

namespace Sys2Proof.Machine

/-! ### A figure stretched by a multiplier -/

/-- R46: at the multiplier 16 nothing is rounded. -/
theorem stretch_sixteen (v : Nat) : stretch v 16 = v := by
  unfold stretch
  omega

theorem stretch_le_stretch {v w m k : Nat} (hv : v ≤ w) (hm : m ≤ k) : stretch v m ≤ stretch w k :=
  Nat.div_le_div_right (Nat.add_le_add_right (Nat.mul_le_mul hv hm) 8)

/-! ### The charge of a page -/

section
variable {n f b : Nat} (hlo : n - f ≤ 16 * b) (hhi : 16 * b < n - f + 16)
include hlo hhi

/-- R44: the billable blocks are the whole number of blocks that just covers the billable characters. -/
theorem billableBlocks_eq : billableBlocks n f = b := by
  unfold billableBlocks blocksOf
  omega

/-- R44: fifteen billable blocks are the most of a page of 240 characters, from 225 beyond the free ones. -/
theorem billable_fifteen (hn : n ≤ 240) : b ≤ 15 ∧ (b = 15 ↔ f + 225 ≤ n) := by omega

/-- R45: the raw charge, with the urgent factor written out. -/
theorem rawCharge_eq (base u p : Nat) (prio : Priority) :
    rawCharge base u p f n prio = base * (if prio = .urgent then u else 1) + b * p := by
  unfold rawCharge
  rw [billableBlocks_eq hlo hhi]
  cases prio <;> rfl

end

/-- R45: the greatest raw charge of a row in its ranges is 255 × 4 + 15 × 63. -/
theorem raw_le {base factor b p : Nat} (hbase : base ≤ 255) (hfactor : factor ≤ 4) (hb : b ≤ 15)
    (hp : p ≤ 63) : base * factor + b * p ≤ 1965 :=
  Nat.add_le_add (Nat.mul_le_mul hbase hfactor) (Nat.mul_le_mul hb hp)

/-- R43, R46: the charge is the stretched raw charge, and 4,095 where that is greater. -/
theorem State.chargeFor_eq (s : State) {cls n b : Nat} (c : Chan) (p : Priority)
    (hlo : n - s.tariffF cls ≤ 16 * b) (hhi : 16 * b < n - s.tariffF cls + 16) :
    s.chargeFor cls c n p =
      min 4095 (stretch (s.tariffB cls * (if p = .urgent then s.tariffU cls else 1) + b * s.tariffP cls)
        (s.m16 (s.mon c).level)) := by
  rw [State.chargeFor, chargeOf, rawCharge_eq hlo hhi]

/-- Settles O30: no raw charge of a row in its ranges is limited below the multiplier 34. -/
theorem chargeFormula : Obligations.ChargeFormula := by
  intro s cls n b c p hlo hhi raw
  have charge : s.chargeFor cls c n p = min 4095 (stretch raw (s.m16 (s.mon c).level)) :=
    s.chargeFor_eq c p hlo hhi
  refine ⟨charge, s.chargeFor_le cls c n p, billable_fifteen hlo hhi, fun hn hB _ hU hP => ?_⟩
  have factor : (if p = .urgent then s.tariffU cls else 1) ≤ 4 := by split <;> omega
  have hraw : raw ≤ 1965 := raw_le hB factor (billable_fifteen hlo hhi hn).1 hP
  have unlimited (hm : s.m16 (s.mon c).level ≤ 33) :
      s.chargeFor cls c n p = stretch raw (s.m16 (s.mon c).level) := by
    have bound : stretch 1965 33 = 4053 := rfl
    have := stretch_le_stretch hraw hm
    rw [charge]
    omega
  exact ⟨hraw, fun h16 => by rw [unlimited (by omega), h16, stretch_sixteen], unlimited⟩

/-! ### The listen window and the one-way spacing -/

/-- R56: a stretched figure is kept within 1..1,023. -/
theorem clampWindow_eq (w : Nat) :
    max 1 (min 1023 w) = if w < 1 then 1 else if 1023 < w then 1023 else w := by
  split_ifs <;> omega

/-- R50, R54, R55: the window of an entry whose attempt has the one-way flag of `a`. -/
theorem State.windowFor_eq (s : State) {e : Entry} {a : Attempt} (ha : e.attempt = some a) :
    s.windowFor e =
      max 1 (min 1023 (stretch (rawWindow e.base e.cap e.attempts a.oneWay)
        (s.m16 (s.mon e.chan).level))) := by
  rw [State.windowFor, ha]
  rfl

/-- Settles O31: the model's clamp is the two comparisons of R56. -/
theorem windowFormula : Obligations.WindowFormula := by
  intro s e a ha _ w w'
  rw [s.windowFor_eq ha]
  exact clampWindow_eq w'

end Sys2Proof.Machine
end

/-! ## PAGE STATUS and CANCEL PAGE (R86, R87, R94, R95) -/

section

namespace Sys2Proof.Machine

/-! ### The result buffer at the ending of a page

A command at its code empties the result buffer before the page ends, and writes it again after: the ending
neither reads nor writes it. -/

theorem State.giveBlocks_clearResult (s : State) (bs : List Nat) :
    s.clearResult.giveBlocks bs = (s.giveBlocks bs).clearResult := by
  rw [State.giveBlocks_eq, State.giveBlocks_eq]
  rfl

theorem State.leavePlace_clearResult (s : State) (t : Tag) (e : Entry) :
    s.clearResult.leavePlace t e = (s.leavePlace t e).clearResult := by
  have slot : s.clearResult.leaveSlot t e = (s.leaveSlot t e).clearResult := by
    unfold State.leaveSlot
    cases e.wheel <;> rfl
  unfold State.leavePlace
  cases e.state with
  | assembling | queued | onAir => rfl
  | waiting | listening => exact congrArg (State.dropLookup · _) slot

theorem State.endingEvent_clearResult (s : State) (i : Nat) (k : Ending) (c r : Nat) :
    s.clearResult.endingEvent i k c r = (s.endingEvent i k c r).clearResult := by
  cases k with
  | delivered | sentOnly | none => rfl
  | expired | cancelled | aborted =>
    simp only [State.endingEvent, State.commit_eq]
    rfl

theorem State.endingRemoval_clearResult (s : State) (a : Nat) :
    s.clearResult.endingRemoval a = (s.endingRemoval a).clearResult := by
  by_cases idle : s.op = none
  · simp only [State.endingRemoval_eq, State.clearResult_op, idle, if_true]
    rfl
  · by_cases listed : a ∈ s.pendingRemovals <;> simp [State.endingRemoval_eq, idle, listed]
    rfl

theorem State.lowerLive_clearResult (s : State) (a : Nat) :
    s.clearResult.lowerLive a = (s.lowerLive a).clearResult := by
  have record (u : State) : u.clearResult.record a = u.record a := rfl
  have update (f : Subscriber → Subscriber) :
      s.clearResult.updateRecord a f = (s.updateRecord a f).clearResult := rfl
  unfold State.lowerLive
  simp only [update, record, State.endingRemoval_clearResult]
  cases (s.updateRecord a _).record a with
  | none => rfl
  | some r => exact (apply_ite State.clearResult _ _ _).symm

/-- R91, R163: the ending of a page leaves the result buffer out of account. -/
theorem State.endEntry_clearResult (s : State) (k : Ending) (t : Tag) :
    s.clearResult.endEntry k t = (s.endEntry k t).clearResult := by
  have live : s.clearResult.entry t = s.entry t := rfl
  cases h : s.entry t with
  | none => rw [State.endEntry_of_none k h, State.endEntry_of_none k (live.trans h)]
  | some e =>
    have refund : s.clearResult.refundFor k e = s.refundFor k e := rfl
    rw [State.endEntry_of_some k h, State.endEntry_of_some k (live.trans h), refund,
      State.giveBlocks_clearResult, State.leavePlace_clearResult, State.endingEvent_clearResult,
      State.lowerLive_clearResult]
    rfl

/-! ### The bytes of a live entry -/

theorem beBytes_one (v : Nat) : beBytes 1 v = [byteOf v] := by
  simp [beBytes, byteOf]

theorem chanByte_eq (c : Chan) : chanByte c = if c = .A then 0 else 1 := by cases c <;> rfl

theorem priorityByte_eq (p : Priority) : priorityByte p = if p = .urgent then 1 else 0 := by
  cases p <;> rfl

theorem kindByte_eq (k : PageKind) : kindByte k = if k = .text then 1 else 0 := by cases k <;> rfl

/-! ### The two commands at their codes -/

/-- R86: an ended page's tag, and a tag that its slot has not now, name no live entry. -/
theorem State.entry_eq_none {s : State} {t : Tag} :
    s.entry t = none ↔ (s.slot t.slot).gen ≠ t.gen ∨ (s.slot t.slot).entry = none := by
  unfold State.entry
  split <;> simp [*]

theorem State.tagEnded_iff {s : State} {t : Tag} :
    s.tagEnded t = true ↔
      (s.slot t.slot).gen = t.gen ∧ (s.slot t.slot).entry = none ∧ (s.slot t.slot).last ≠ .none := by
  simp [State.tagEnded, and_assoc]

/-- R94, R95: the result that a tag that is not live gives. -/
def State.goneResult (s : State) (t : Tag) : List Byte :=
  if s.tagEnded t then [0x0A, endingByte (s.slot t.slot).last] else [0x09]

theorem State.goneResult_of_ended {s : State} {t : Tag} (free : (s.slot t.slot).entry = none)
    (hgen : (s.slot t.slot).gen = t.gen) (ended : (s.slot t.slot).last ≠ .none) :
    s.goneResult t = [0x0A, endingByte (s.slot t.slot).last] :=
  if_pos (State.tagEnded_iff.2 ⟨hgen, free, ended⟩)

theorem State.goneResult_of_stale {s : State} {t : Tag}
    (h : (s.slot t.slot).gen ≠ t.gen ∨ (s.slot t.slot).last = .none) : s.goneResult t = [0x09] :=
  if_neg fun ended => by
    obtain ⟨hgen, -, hlast⟩ := State.tagEnded_iff.1 ended
    exact h.elim (· hgen) hlast

theorem State.answerGone_codeTaken (s : State) (t : Tag) :
    s.codeTaken.answerGone t = s.afterCode (s.goneResult t) := by
  change (if s.tagEnded t then _ else _) = s.afterCode (if s.tagEnded t then _ else _)
  split <;> rfl

section
variable {s : State} {t : Tag} {e : Entry}

/-- R94 -/
theorem takePageStatus_of_live {f : Frame} (hf : f.page = t) (he : s.entry t = some e) :
    takePageStatus f s = s.answer .ok (s.entryBytes t e) := by
  unfold takePageStatus
  rw [hf, he]

theorem takePageStatus_of_gone {f : Frame} (hf : f.page = t) (he : s.entry t = none) :
    takePageStatus f s = s.answerGone t := by
  unfold takePageStatus
  rw [hf, he]

theorem takeCancelPage_of_gone {f : Frame} (hf : f.page = t) (he : s.entry t = none) :
    takeCancelPage f s = s.answerGone t := by
  unfold takeCancelPage
  rw [hf, he]

/-- R95: CANCEL PAGE of a live entry, by its state. -/
theorem takeCancelPage_of_live {f : Frame} (hf : f.page = t) (he : s.entry t = some e) :
    takeCancelPage f s =
      if e.state = .assembling then s.answer .state []
      else if e.state = .onAir then
        (s.setEntry t.slot { e with cancelPending := true }).answer .ok (0 :: beBytes 2 0)
      else (s.endEntry .cancelled t).answer .ok (1 :: beBytes 2 (s.refundFor .cancelled e)) := by
  unfold takeCancelPage
  rw [hf, he]
  obtain ⟨state⟩ := e
  cases state <;> rfl

/-- R94: PAGE STATUS of a live entry. -/
theorem pageStatus_live (harr : s.codeArrives .pageStatus (pageDesig t)) (he : s.entry t = some e) :
    exec .pageStatus s = .next (s.afterCode (0x00 :: s.entryBytes t e)) := by
  have live : s.codeTaken.entry t = some e := he
  change Host.Outcome.next (portCode .pageStatus takePageStatus s) = _
  rw [portCode_operative harr rfl rfl rfl]
  exact congrArg Host.Outcome.next (takePageStatus_of_live rfl live)

/-- R94: PAGE STATUS of a tag that is not live. -/
theorem pageStatus_gone (harr : s.codeArrives .pageStatus (pageDesig t)) (he : s.entry t = none) :
    exec .pageStatus s = .next (s.afterCode (s.goneResult t)) := by
  have gone : s.codeTaken.entry t = none := he
  change Host.Outcome.next (portCode .pageStatus takePageStatus s) = _
  rw [portCode_operative harr rfl rfl rfl, ← State.answerGone_codeTaken]
  exact congrArg Host.Outcome.next (takePageStatus_of_gone rfl gone)

/-- R95: CANCEL PAGE of a tag that is not live. -/
theorem cancelPage_gone (harr : s.codeArrives .cancelPage (pageDesig t)) (he : s.entry t = none) :
    exec .cancelPage s = .next (s.afterCode (s.goneResult t)) := by
  have gone : s.codeTaken.entry t = none := he
  change Host.Outcome.next (portCode .cancelPage takeCancelPage s) = _
  rw [portCode_operative harr rfl rfl rfl, ← State.answerGone_codeTaken]
  exact congrArg Host.Outcome.next (takeCancelPage_of_gone rfl gone)

/-- R95: CANCEL PAGE of a live entry, whose result is written once the page has ended. -/
theorem cancelPage_live (harr : s.codeArrives .cancelPage (pageDesig t)) (he : s.entry t = some e) :
    let u := (s.setPort { s.port.paired with latch := noDesig }).endEntry .cancelled t
    exec .cancelPage s = .next
      (if e.state = .assembling then s.afterCode [0x05]
      else if e.state = .onAir then
        (s.afterCode [0x00, 0, 0, 0]).setEntry t.slot { e with cancelPending := true }
      else u.setPort (u.port.answered ([0x00, 1] ++ beBytes 2 (s.refundFor .cancelled e)))) := by
  intro u
  have ended : s.codeTaken.endEntry .cancelled t = u.clearResult :=
    State.endEntry_clearResult (s.setPort { s.port.paired with latch := noDesig }) .cancelled t
  have live : s.codeTaken.entry t = some e := he
  change Host.Outcome.next (portCode .cancelPage takeCancelPage s) = _
  rw [portCode_operative harr rfl rfl rfl]
  change Host.Outcome.next (takeCancelPage _ s.codeTaken) = _
  rw [takeCancelPage_of_live (t := t) rfl live, ended]
  rfl

end

/-- Settles O38: the bytes of a live entry field by field, and CANCEL PAGE by the state of the entry. -/
theorem pageStatusAndCancel : Obligations.PageStatusAndCancel := by
  refine ⟨fun s t harr => ?_, fun s t harr => ?_, rfl, rfl⟩
  · intro sl
    refine ⟨fun e he hgen => ?_, fun free hgen ended => ?_,
      fun free hgen fresh => ?_, fun hgen => ?_⟩
    · intro source band place
      have hsource : sourceByte e.source = source := by
        dsimp only [source]
        cases e.source <;> rfl
      have hplace : s.placeByte t e = place := by
        simp only [State.placeByte, hsource, priorityByte_eq]
        dsimp only [place]
        cases e.state <;> rfl
      rw [pageStatus_live harr (State.entry_eq_some.2 ⟨hgen, he⟩)]
      unfold State.entryBytes
      simp only [hsource, hplace, chanByte_eq, priorityByte_eq, kindByte_eq, tagBytes, byteOf, flagByte,
        List.append_assoc, List.cons_append, List.nil_append]
      rcases e.wheel with _ | ⟨w, rounds⟩
      · cases e.attempt <;> rfl
      · simp only [Option.map_some, optBytes, beBytes_one]
        cases e.attempt <;> rfl
    · rw [pageStatus_gone harr (State.entry_eq_none.2 (.inr free)),
        State.goneResult_of_ended free hgen ended]
    · rw [pageStatus_gone harr (State.entry_eq_none.2 (.inr free)), State.goneResult_of_stale (.inr fresh)]
    · rw [pageStatus_gone harr (State.entry_eq_none.2 (.inl hgen)), State.goneResult_of_stale (.inl hgen)]
  · intro sl
    refine ⟨fun free hgen ended => ?_, fun gone => ?_, fun e he => ⟨fun hst => ?_, fun hst => ?_,
      fun hst => ?_⟩⟩
    · rw [cancelPage_gone harr (State.entry_eq_none.2 (.inr free)),
        State.goneResult_of_ended free hgen ended]
    · have stale := gone.imp_right And.right
      have none := gone.imp_right And.left
      rw [cancelPage_gone harr (State.entry_eq_none.2 none), State.goneResult_of_stale stale]
    · rw [cancelPage_live harr he, if_pos hst]
    · rw [cancelPage_live harr he, if_neg (by simp [hst]), if_pos hst]
      rfl
    · intro refund u
      obtain ⟨complete, offAir⟩ : e.state ≠ .assembling ∧ e.state ≠ .onAir := by
        rcases hst with h | h | h <;> simp [h]
      rw [cancelPage_live harr he, if_neg complete, if_neg offAir]
      rfl

end Sys2Proof.Machine
end

/-! ## The places of the live entries: what they are read from (R88) -/

section

namespace Sys2Proof.Machine

/-! ### States whose entries stand in the same places -/

/-- A line as far as it is a place: its state and the tag bound to it. -/
def Line.place (l : Line) : Line := { freshLine with state := l.state, bound := l.bound }

/-- A channel as far as it is a place: its bands and its outstanding list. -/
def Channel.place (ch : Channel) : Channel :=
  { freshChannel with urgent := ch.urgent, normal := ch.normal, outstanding := ch.outstanding }

/-- R137: a lookup is one of the Answer-Back Unit's. -/
def isService (u : LookupUser) : Bool :=
  match u with
  | .service _ => true
  | .admission _ _ | .launch _ => false

/-- The state with everything blanked that the places of the entries, and what waits for them, are not read
from. The operation in progress is blanked too: see `State.clears`. -/
def State.places (s : State) : State :=
  { State.reset with
    lookups := (s.lookups.filter (fun l => !isService l.user)).map (fun l => { l with held := false })
    lines := ⟨s.lines.v0.place, s.lines.v1.place, s.lines.v2.place, s.lines.v3.place⟩
    slots := s.slots, wheel := s.wheel, visits := s.visits
    chans := ⟨s.chans.a.place, s.chans.b.place⟩
    freeBlocks := []
    port := { freshPort with frame := s.port.frame } }

/-- R100, R162: the part is clearing or purging, so that no frame is open. -/
def State.clears (s : State) : Prop := s.op = some .autoclear ∨ ∃ i, s.op = some (.purge i)

/-- In `u` every entry stands where it stands in `s`, and the same waits for it. -/
structure State.SamePlaces (s u : State) : Prop where
  places : u.places = s.places
  clears : u.clears → s.clears

namespace State.SamePlaces

theorem of_eq {s u : State} (places : u.places = s.places) (op : u.op = s.op) :
    s.SamePlaces u :=
  ⟨places, fun h => by simpa only [State.clears, op] using h⟩

/-- An operation that takes time, but neither the autoclear nor a purge, has begun. -/
theorem of_op {s u : State} (op : ¬ u.clears) (places : u.places = s.places) : s.SamePlaces u :=
  ⟨places, fun h => absurd h op⟩

theorem refl (s : State) : s.SamePlaces s := of_eq rfl rfl

theorem trans {s u t : State} (h : s.SamePlaces u) (h' : u.SamePlaces t) : s.SamePlaces t :=
  ⟨h'.places.trans h.places, fun hc => h.clears (h'.clears hc)⟩

theorem foldl {α : Type} {f : State → α → State} (hf : ∀ (u : State) x, u.SamePlaces (f u x)) (xs : List α)
    (s : State) : s.SamePlaces (xs.foldl f s) := by
  induction xs generalizing s with
  | nil => exact refl s
  | cons x rest ih => exact (hf s x).trans (ih _)

theorem lookups_any (s : State) {p : LookupUser → Bool} (hp : ∀ n, p (.service n) = false) :
    s.places.lookups.any (fun l => p l.user) = s.lookups.any (fun l => p l.user) := by
  simp only [State.places, List.any_map, List.any_filter]
  congr 1
  funext l
  cases h : l.user <;> simp [isService, h, hp]

theorem lookups_countP (s : State) {p : LookupUser → Bool} (hp : ∀ n, p (.service n) = false) :
    s.places.lookups.countP (fun l => p l.user) = s.lookups.countP (fun l => p l.user) := by
  simp only [State.places, List.countP_map, List.countP_filter]
  congr 1
  funext l
  cases h : l.user <;> simp [isService, h, hp]

theorem line_places (s : State) (n : LineNo) : s.places.line n = (s.line n).place := by
  fin_cases n <;> rfl

theorem chan_places (s : State) (c : Chan) : s.places.chan c = (s.chan c).place := by
  cases c <;> rfl

variable {s u : State} (h : s.SamePlaces u)
include h

theorem slots : u.slots = s.slots := (congrArg State.slots h.places :)
theorem wheel : u.wheel = s.wheel := (congrArg State.wheel h.places :)
theorem visits : u.visits = s.visits := (congrArg State.visits h.places :)
theorem frame : u.port.frame = s.port.frame := (congrArg (fun v => v.port.frame) h.places :)

theorem entry (t : Tag) : u.entry t = s.entry t := State.entry_congr h.slots t

theorem wheelList (w : Nat) : u.wheelList w = s.wheelList w := by
  rw [State.wheelList, State.wheelList, h.wheel]

theorem lineState (n : LineNo) : (u.line n).state = (s.line n).state := by
  have hn : (u.line n).place = (s.line n).place := by rw [← line_places, ← line_places, h.places]
  exact (congrArg Line.state hn :)

theorem lineBound (n : LineNo) : (u.line n).bound = (s.line n).bound := by
  have hn : (u.line n).place = (s.line n).place := by rw [← line_places, ← line_places, h.places]
  exact (congrArg Line.bound hn :)

theorem chanPlace (c : Chan) : (u.chan c).place = (s.chan c).place := by
  rw [← chan_places, ← chan_places, h.places]

theorem band (c : Chan) (p : Priority) : (u.chan c).band p = (s.chan c).band p := by
  cases p with
  | urgent => exact (congrArg Channel.urgent (h.chanPlace c) :)
  | normal => exact (congrArg Channel.normal (h.chanPlace c) :)

theorem outstanding (c : Chan) : (u.chan c).outstanding = (s.chan c).outstanding :=
  (congrArg Channel.outstanding (h.chanPlace c) :)

theorem any {p : LookupUser → Bool} (hp : ∀ n, p (.service n) = false) :
    u.lookups.any (fun l => p l.user) = s.lookups.any (fun l => p l.user) := by
  rw [← lookups_any u hp, ← lookups_any s hp, h.places]

theorem countP {p : LookupUser → Bool} (hp : ∀ n, p (.service n) = false) :
    u.lookups.countP (fun l => p l.user) = s.lookups.countP (fun l => p l.user) := by
  rw [← lookups_countP u hp, ← lookups_countP s hp, h.places]

theorem launchAsked (t : Tag) : u.launchAsked t = s.launchAsked t := h.any fun _ => rfl

theorem sourceHolds (t : Tag) (e : Entry) : u.sourceHolds t e ↔ s.sourceHolds t e := by
  unfold State.sourceHolds
  cases e.source with
  | line n => simp only [h.lineBound]
  | port => simp only [h.frame]

end State.SamePlaces

/-! ### Every entry in its place but some -/

/-- R88: entry `e` of tag `t` stands in the place that its state gives. -/
structure State.InPlace (s : State) (t : Tag) (e : Entry) : Prop where
  assembling : e.state = .assembling → (s.sourceHolds t e ↔ s.launchAsked t = false)
  wheel : e.state.onWheel = true → ∃ w r, e.wheel = some (w, r) ∧ t ∈ s.wheelList w
  offWheel : e.state.onWheel = false → e.wheel = none
  queued : e.state = .queued → t ∈ (s.chan e.chan).band e.priority
  onAir : e.state = .onAir → t ∈ (s.chan e.chan).outstanding

/-- `State.PlacesOk` in the middle of a step: the entries of the tags of `X` may stand in no place. -/
structure State.PlacedBut (s : State) (X : Set Tag) : Prop where
  slots : s.SlotsOk
  placed : ∀ t e, s.entry t = some e → t ∉ X → s.InPlace t e
  lines : ∀ n t, (s.line n).bound = some t →
    ((s.line n).state = .text ∨ (s.line n).state = .check) ∧
    ∃ e, s.entry t = some e ∧ e.state = .assembling ∧ e.source = .line n
  frame : ∀ f t v, s.port.frame = some f → f.outcome = .admitted t v →
    ∃ e, s.entry t = some e ∧ e.state = .assembling ∧ e.source = .port
  wheelLists : ∀ w, (s.wheelList w).Nodup ∧ ∀ t ∈ s.wheelList w,
    ∃ e r, s.entry t = some e ∧ e.state.onWheel = true ∧ e.wheel = some (w, r)
  bands : ∀ c p, ((s.chan c).band p).Nodup ∧ ∀ t ∈ (s.chan c).band p,
    ∃ e, s.entry t = some e ∧ e.state = .queued ∧ e.chan = c ∧ e.priority = p
  waiters : s.WaitersOk

theorem State.placesOk_iff {s : State} : s.PlacesOk ↔ s.PlacedBut ∅ := by
  constructor
  · rintro ⟨hp, hw⟩
    exact {
      slots := hp.slots
      placed := fun t e he _ =>
        { assembling := hp.assembling t e he, wheel := (hp.wheel t e he).1
          offWheel := (hp.wheel t e he).2, queued := hp.queued t e he, onAir := hp.onAir t e he }
      lines := hp.lines, frame := hp.frame, wheelLists := hp.wheelLists, bands := hp.bands, waiters := hw }
  · intro h
    have placed := fun t e he => h.placed t e he (Set.notMem_empty t)
    exact {
      placed := {
        slots := h.slots
        assembling := fun t e he => (placed t e he).assembling
        wheel := fun t e he => ⟨(placed t e he).wheel, (placed t e he).offWheel⟩
        queued := fun t e he => (placed t e he).queued
        onAir := fun t e he => (placed t e he).onAir
        lines := h.lines, frame := h.frame, wheelLists := h.wheelLists, bands := h.bands }
      waiters := h.waiters }

theorem State.InPlace.congr {s u : State} {t : Tag} {e : Entry} (h : s.InPlace t e)
    (same : s.SamePlaces u) : u.InPlace t e where
  assembling ha := by rw [same.sourceHolds, same.launchAsked]; exact h.assembling ha
  wheel ho := by simpa only [same.wheelList] using h.wheel ho
  offWheel := h.offWheel
  queued hq := by rw [same.band]; exact h.queued hq
  onAir ho := by rw [same.outstanding]; exact h.onAir ho

theorem State.WaitersOk.congr {s u : State} (h : s.WaitersOk) (same : s.SamePlaces u) : u.WaitersOk where
  lineRequest n hn := by
    rw [same.lineState]
    exact h.lineRequest n (same.any (p := isRequestOf (.line n)) (fun _ => rfl) ▸ hn)
  portRequest := by
    rw [same.any (p := isRequestOf .port) (fun _ => rfl), same.frame]; exact h.portRequest
  requestOnce src := by
    rw [same.countP (p := isRequestOf src) (fun _ => rfl)]; exact h.requestOnce src
  launch t ht := by simpa only [same.entry] using h.launch t (same.launchAsked t ▸ ht)
  launchOnce t := by rw [same.countP (p := isLaunchOf t) (fun _ => rfl)]; exact h.launchOnce t
  visits := by simpa only [same.visits, same.wheelList] using h.visits
  frames f hf := h.frames f (same.frame ▸ hf)
  quiet hc := by rw [same.frame]; exact h.quiet (same.clears hc)

theorem State.PlacedBut.congr {s u : State} {X : Set Tag} (h : s.PlacedBut X) (same : s.SamePlaces u) :
    u.PlacedBut X where
  slots := h.slots.congr same.slots
  placed t e he ht := (h.placed t e (same.entry t ▸ he) ht).congr same
  lines n t hn := by
    simpa only [same.lineState, same.entry] using h.lines n t (same.lineBound n ▸ hn)
  frame f t v hf ho := by simpa only [same.entry] using h.frame f t v (same.frame ▸ hf) ho
  wheelLists := by simpa only [same.wheelList, same.entry] using h.wheelLists
  bands := by simpa only [same.band, same.entry] using h.bands
  waiters := h.waiters.congr same

theorem State.PlacesOk.congr {s u : State} (h : s.PlacesOk) (same : s.SamePlaces u) : u.PlacesOk :=
  State.placesOk_iff.2 ((State.placesOk_iff.1 h).congr same)

end Sys2Proof.Machine
end

/-! ## What moves an entry from its place, or into one (R88 to R91, R105, R123, R124) -/

section

namespace Sys2Proof.Machine

/-! ### Tags that stand nowhere -/

/-- R97: the port's frame holds the page of tag `t`. -/
def Port.holds (p : Port) (t : Tag) : Prop := ∃ f v, p.frame = some f ∧ f.outcome = .admitted t v

theorem Port.not_holds_of_no_frame {p : Port} (h : p.frame = none) (t : Tag) : ¬ p.holds t := by
  rintro ⟨f, v, hf, -⟩
  rw [h] at hf; cases hf

theorem State.sourceHolds_congr {s u : State} {t : Tag} (e : Entry)
    (lines : ∀ n, (u.line n).bound = some t ↔ (s.line n).bound = some t)
    (frame : u.port.holds t ↔ s.port.holds t) : u.sourceHolds t e ↔ s.sourceHolds t e := by
  unfold State.sourceHolds
  cases e.source with
  | line n => exact lines n
  | port => exact frame

/-- Tag `t` stands in no place of a live entry but an outstanding list, and its launch is not asked for. -/
structure State.Unplaced (s : State) (t : Tag) : Prop where
  bound : ∀ n, (s.line n).bound ≠ some t
  held : ¬ s.port.holds t
  wheel : ∀ w, t ∉ s.wheelList w
  bands : ∀ c p, t ∉ (s.chan c).band p
  asked : s.launchAsked t = false

theorem State.Unplaced.not_sourceHolds {s : State} {t : Tag} (h : s.Unplaced t) (e : Entry) :
    ¬ s.sourceHolds t e := by
  unfold State.sourceHolds
  cases e.source with
  | line n => exact h.bound n
  | port => exact h.held

section
variable {s : State} {X : Set Tag} (h : s.PlacedBut X) {t : Tag} {e : Entry}
include h

/-- A tag that names no live entry stands nowhere. -/
theorem State.PlacedBut.unplaced_of_dead (he : s.entry t = none) : s.Unplaced t where
  bound n hn := by
    obtain ⟨-, e, hs, -⟩ := h.lines n t hn
    rw [he] at hs; cases hs
  held := by
    rintro ⟨f, v, hf, ho⟩
    obtain ⟨e, hs, -⟩ := h.frame f t v hf ho
    rw [he] at hs; cases hs
  wheel w hw := by
    obtain ⟨e, r, hs, -⟩ := (h.wheelLists w).2 t hw
    rw [he] at hs; cases hs
  bands c p hb := by
    obtain ⟨e, hs, -⟩ := (h.bands c p).2 t hb
    rw [he] at hs; cases hs
  asked := by
    by_contra ha
    obtain ⟨e, hs, -⟩ := h.waiters.launch t (by simpa using ha)
    rw [he] at hs; cases hs

variable (he : s.entry t = some e)
include he

theorem State.PlacedBut.not_bound (hst : e.state ≠ .assembling) (n : LineNo) :
    (s.line n).bound ≠ some t := fun hn => by
  obtain ⟨-, e', he', ha, -⟩ := h.lines n t hn
  rw [he] at he'; cases he'
  exact hst ha

theorem State.PlacedBut.not_holds (hst : e.state ≠ .assembling) : ¬ s.port.holds t := by
  rintro ⟨f, v, hf, ho⟩
  obtain ⟨e', he', ha, -⟩ := h.frame f t v hf ho
  rw [he] at he'; cases he'
  exact hst ha

theorem State.PlacedBut.wheel_of_mem {w : Nat} (hw : t ∈ s.wheelList w) :
    e.state.onWheel = true ∧ ∃ r, e.wheel = some (w, r) := by
  obtain ⟨e', r, he', ho, hr⟩ := (h.wheelLists w).2 t hw
  rw [he] at he'; cases he'
  exact ⟨ho, r, hr⟩

theorem State.PlacedBut.band_of_mem {c : Chan} {p : Priority} (hb : t ∈ (s.chan c).band p) :
    e.state = .queued ∧ e.chan = c ∧ e.priority = p := by
  obtain ⟨e', he', hr⟩ := (h.bands c p).2 t hb
  rw [he] at he'; cases he'
  exact hr

theorem State.PlacedBut.state_of_asked (ha : s.launchAsked t = true) :
    e.state = .assembling ∨ e.state.onWheel = true := by
  obtain ⟨e', he', hr⟩ := h.waiters.launch t ha
  rw [he] at he'; cases he'
  exact hr

/-- R66, R97: the entry of a tag that a source holds has that source. -/
theorem State.PlacedBut.source_of_bound {n : LineNo} (hn : (s.line n).bound = some t) :
    e.state = .assembling ∧ e.source = .line n := by
  obtain ⟨-, e', he', hr⟩ := h.lines n t hn
  rw [he] at he'; cases he'
  exact hr

theorem State.PlacedBut.source_of_holds (hh : s.port.holds t) :
    e.state = .assembling ∧ e.source = .port := by
  obtain ⟨f, v, hf, ho⟩ := hh
  obtain ⟨e', he', hr⟩ := h.frame f t v hf ho
  rw [he] at he'; cases he'
  exact hr

/-- R128: the tag of an ON_AIR entry stands on the outstanding list alone. -/
theorem State.PlacedBut.unplaced_of_onAir (hst : e.state = .onAir) : s.Unplaced t where
  bound := h.not_bound he (by rw [hst]; decide)
  held := h.not_holds he (by rw [hst]; decide)
  wheel w hw := by
    have ho := (h.wheel_of_mem he hw).1
    rw [hst] at ho; cases ho
  bands c p hb := by
    have hq := (h.band_of_mem he hb).1
    rw [hst] at hq; cases hq
  asked := by
    by_contra ha
    rcases h.state_of_asked he (by simpa using ha) with hs | hs <;> rw [hst] at hs <;> cases hs

end

/-! ### Settling and rewriting entries -/

section
variable {s : State} {X : Set Tag} (h : s.PlacedBut X) {t : Tag}
include h

theorem State.PlacedBut.mono {Y : Set Tag} (hXY : X ⊆ Y) : s.PlacedBut Y :=
  { h with placed := fun t e he ht => h.placed t e he fun hx => ht (hXY hx) }

/-- One more tag may stand in no place. -/
theorem State.PlacedBut.loose (t : Tag) : s.PlacedBut (insert t X) := h.mono (Set.subset_insert t X)

omit h in
/-- A tag that names no live entry, or one in its place, need not be excepted. -/
theorem State.PlacedBut.settle (h : s.PlacedBut (insert t X))
    (ht : ∀ e, s.entry t = some e → s.InPlace t e) : s.PlacedBut X :=
  { h with
    placed := fun t' e he hX => by
      by_cases heq : t' = t
      · subst heq; exact ht e he
      · exact h.placed t' e he fun hm => hm.elim heq hX }

/-- The slot of a tag that stands nowhere may take another entry. -/
theorem State.PlacedBut.rewrite {sl : List (Nat × PageSlot)} (ht : t ∈ X) (hu : s.Unplaced t)
    (others : ∀ t', t' ≠ t → State.entry { s with slots := sl } t' = s.entry t')
    (slots : State.SlotsOk { s with slots := sl }) : State.PlacedBut { s with slots := sl } X := by
  have ne : ∀ {t'}, t' ∉ X → t' ≠ t := fun hX heq => hX (heq ▸ ht)
  exact {
    slots := slots
    placed := fun t' e he hX => { h.placed t' e (others t' (ne hX) ▸ he) hX with }
    lines := fun n t' hn => by
      rw [others t' fun heq => hu.bound n (heq ▸ hn)]; exact h.lines n t' hn
    frame := fun f t' v hf ho => by
      rw [others t' fun heq => hu.held ⟨f, v, hf, heq ▸ ho⟩]; exact h.frame f t' v hf ho
    wheelLists := fun w => ⟨(h.wheelLists w).1, fun t' hw => by
      rw [others t' fun heq => hu.wheel w (heq ▸ hw)]; exact (h.wheelLists w).2 t' hw⟩
    bands := fun c p => ⟨(h.bands c p).1, fun t' hb => by
      rw [others t' fun heq => hu.bands c p (heq ▸ hb)]; exact (h.bands c p).2 t' hb⟩
    waiters := { h.waiters with
      launch := fun t' ha => by
        rw [others t' fun heq => by
          have hf : s.launchAsked t' = false := heq ▸ hu.asked
          rw [show s.launchAsked t' = true from ha] at hf; cases hf]
        exact h.waiters.launch t' ha } }

end

/-- Only the tags of its own slot read a slot that is rewritten. -/
theorem State.entry_setSlot_ne {s : State} {t t' : Tag} (v : PageSlot) (hne : t' ≠ t)
    (old : (s.slot t.slot).gen = t.gen ∨ (s.slot t.slot).entry = none) (new : v.gen = t.gen) :
    (s.setSlot t.slot v).entry t' = s.entry t' := by
  by_cases hs : t'.slot = t.slot
  · have hg : t.gen ≠ t'.gen := fun hg => hne (by cases t; cases t'; simp_all)
    have h1 : (s.setSlot t.slot v).entry t' = none := by
      rw [State.entry, hs, State.slot_setSlot, new, if_neg hg]
    have h2 : s.entry t' = none := by
      rw [State.entry, hs]
      rcases old with ho | ho
      · rw [ho, if_neg hg]
      · rw [ho, ite_self]
    rw [h1, h2]
  · rw [State.entry, State.slot_setSlot_ne s v hs, State.entry]

theorem State.entry_setEntry_ne {s : State} {t t' : Tag} {e : Entry} (he : s.entry t = some e) (e' : Entry)
    (hne : t' ≠ t) : (s.setEntry t.slot e').entry t' = s.entry t' :=
  State.entry_setSlot_ne _ hne (.inl (State.entry_eq_some.1 he).1) (State.entry_eq_some.1 he).1

section
variable {s : State} {X : Set Tag} (h : s.PlacedBut X) {t : Tag} {e : Entry}
include h

/-- A live entry that stands nowhere is rewritten. -/
theorem State.PlacedBut.setEntry (ht : t ∈ X) (hu : s.Unplaced t) (he : s.entry t = some e) (e' : Entry) :
    (s.setEntry t.slot e').PlacedBut X :=
  h.rewrite ht hu (fun _ hne => State.entry_setEntry_ne he e' hne) (h.slots.setEntry he e')

/-- R91: the slot of an entry that stands nowhere becomes free. -/
theorem State.PlacedBut.freeSlot (ht : t ∈ X) (hu : s.Unplaced t) (he : s.entry t = some e) (k : Ending) :
    (s.freeSlot t.slot k).PlacedBut X := by
  obtain ⟨hgen, -⟩ := State.entry_eq_some.1 he
  refine h.rewrite ht hu (fun _ hne => State.entry_setSlot_ne _ hne (.inl hgen) hgen) fun i hi => ?_
  by_cases heq : i = t.slot
  · have hf : ((s.freeSlot t.slot k).slot i).entry = none := by
      rw [heq, State.freeSlot, State.slot_setSlot]
    exact hf
  · have hf : ((s.freeSlot t.slot k).slot i).entry = (s.slot i).entry := by
      rw [State.freeSlot, State.slot_setSlot_ne s _ heq]
    exact hf.trans (h.slots i hi)

/-- An entry rewritten within its place: state, source, channel, priority and wheel slot stay. -/
theorem State.PlacedBut.setEntry_same (he : s.entry t = some e) {e' : Entry} (state : e'.state = e.state)
    (source : e'.source = e.source) (chan : e'.chan = e.chan) (priority : e'.priority = e.priority)
    (wheel : e'.wheel.map Prod.fst = e.wheel.map Prod.fst) : (s.setEntry t.slot e').PlacedBut X := by
  have new : (s.setEntry t.slot e').entry t = some e' := State.entry_setEntry he e'
  have other : ∀ t', t' ≠ t → (s.setEntry t.slot e').entry t' = s.entry t' :=
    fun t' hne => State.entry_setEntry_ne he e' hne
  have slotOf : ∀ w, (∃ r, e'.wheel = some (w, r)) ↔ ∃ r, e.wheel = some (w, r) := by
    intro w
    have hw : ∀ o : Option (Nat × Nat), (∃ r, o = some (w, r)) ↔ o.map Prod.fst = some w := by
      intro o
      rcases o with _ | ⟨w', r⟩ <;> simp
    rw [hw, hw, wheel]
  have holds : s.sourceHolds t e' ↔ s.sourceHolds t e := by rw [State.sourceHolds, State.sourceHolds, source]
  -- what is true of the old entry wherever a tag stands is true of the new one
  have live : ∀ (P : Entry → Prop), (P e → P e') → ∀ t', (∃ x, s.entry t' = some x ∧ P x) →
      ∃ x, (s.setEntry t.slot e').entry t' = some x ∧ P x := by
    rintro P hP t' ⟨x, hx, hp⟩
    by_cases heq : t' = t
    · subst heq
      rw [he] at hx; cases hx
      exact ⟨e', new, hP hp⟩
    · exact ⟨x, by rw [other t' heq]; exact hx, hp⟩
  exact {
    slots := h.slots.setEntry he e'
    placed := fun t' x hx hX => by
      by_cases heq : t' = t
      · subst heq
        rw [new] at hx; cases hx
        have hp := h.placed t' e he hX
        exact {
          assembling := fun ha => holds.trans (hp.assembling (state ▸ ha))
          wheel := fun ho => by
            obtain ⟨w, r, hr, hm⟩ := hp.wheel (state ▸ ho)
            obtain ⟨r', hr'⟩ := (slotOf w).2 ⟨r, hr⟩
            exact ⟨w, r', hr', hm⟩
          offWheel := fun ho => by
            have hn := hp.offWheel (state ▸ ho)
            rw [hn] at wheel
            simpa using wheel
          queued := fun hq => by
            have hq' := hp.queued (state ▸ hq)
            rw [← chan, ← priority] at hq'; exact hq'
          onAir := fun ho => by
            have ho' := hp.onAir (state ▸ ho)
            rw [← chan] at ho'; exact ho' }
      · exact { h.placed t' x (other t' heq ▸ hx) hX with }
    lines := fun n t' hn => ⟨(h.lines n t' hn).1,
      live (fun x => x.state = .assembling ∧ x.source = .line n) (by rw [state, source]; exact id) t'
        (h.lines n t' hn).2⟩
    frame := fun f t' v hf ho =>
      live (fun x => x.state = .assembling ∧ x.source = .port) (by rw [state, source]; exact id) t'
        (h.frame f t' v hf ho)
    wheelLists := fun w => ⟨(h.wheelLists w).1, fun t' hw => by
      obtain ⟨x, r, hx, hs, hr⟩ := (h.wheelLists w).2 t' hw
      obtain ⟨y, hy, hs', r', hr'⟩ := live (fun x => x.state.onWheel = true ∧ ∃ r, x.wheel = some (w, r))
        (by rw [state, slotOf]; exact id) t' ⟨x, hx, hs, r, hr⟩
      exact ⟨y, r', hy, hs', hr'⟩⟩
    bands := fun c p => ⟨(h.bands c p).1, fun t' hb =>
      live (fun x => x.state = .queued ∧ x.chan = c ∧ x.priority = p)
        (by rw [state, chan, priority]; exact id) t' ((h.bands c p).2 t' hb)⟩
    waiters := { h.waiters with
      launch := fun t' ha =>
        live (fun x => x.state = .assembling ∨ x.state.onWheel = true) (by rw [state]; exact id) t'
          (h.waiters.launch t' ha) } }

end

end Sys2Proof.Machine
end

/-! ## The places left and taken, one by one (R88, R91, R99, R105 to R107, R110, R123, R124) -/

section

namespace Sys2Proof.Machine

/-! ### What the places hold after a change -/

theorem State.wheelList_leaveWheel (s : State) (t : Tag) (w w' : Nat) :
    (s.leaveWheel t w).wheelList w' = if w' = w then (s.wheelList w).erase t else s.wheelList w' := by
  split
  · next hw => subst hw; exact State.wheelList_setWheelList ..
  · next hw => exact State.wheelList_setWheelList_ne s _ hw

theorem State.band_leaveBand (s : State) (t : Tag) (c k : Chan) (p : Priority) :
    ((s.leaveBand t c).chan k).band p =
      if k = c then ((s.chan c).band p).erase t else (s.chan k).band p := by
  split
  · next hk => subst hk; cases p <;> simp [State.leaveBand, Channel.band]
  · next hk => rw [State.leaveBand, State.chan_setChan_ne s _ hk]

theorem Channel.band_enqueue (ch : Channel) (p q : Priority) (t : Tag) :
    (ch.enqueue p t).band q = if q = p then ch.band p ++ [t] else ch.band q := by
  cases p <;> cases q <;> rfl

theorem Channel.outstanding_enqueue (ch : Channel) (p : Priority) (t : Tag) :
    (ch.enqueue p t).outstanding = ch.outstanding := by cases p <;> rfl

@[simp] theorem Line.unbind_state (l : Line) (t : Tag) : (l.unbind t).state = l.state := by
  obtain ⟨b, hb⟩ := l.unbind_eq t
  rw [hb]

theorem Line.unbind_bound {l : Line} {t t' : Tag} :
    (l.unbind t).bound = some t' ↔ l.bound = some t' ∧ t' ≠ t := by
  unfold Line.unbind
  split
  · next hb => simp only [hb, reduceCtorEq, Option.some.injEq, false_iff]; rintro ⟨rfl, hne⟩; exact hne rfl
  · next hb => exact ⟨fun h => ⟨h, fun heq => hb (heq ▸ h)⟩, And.left⟩

theorem State.launchAsked_dropLaunch (s : State) {t t' : Tag} (h : t' ≠ t) :
    (s.dropLookup (isLaunchOf t)).launchAsked t' = s.launchAsked t' := by
  simp only [State.launchAsked, State.dropLookup_lookups, List.any_filter]
  congr 1
  funext l
  cases hl : l.user with
  | launch x =>
    by_cases hx : x = t'
    · simp [isLaunchOf, hx, h]
    · simp [isLaunchOf, hx]
  | admission _ _ | service _ => simp [isLaunchOf]

theorem State.launchAsked_dropLaunch_self (s : State) (t : Tag) :
    (s.dropLookup (isLaunchOf t)).launchAsked t = false := by
  simp only [State.launchAsked, State.dropLookup_lookups, List.any_filter, List.any_eq_false]
  intro l _
  cases isLaunchOf t l.user <;> simp

theorem State.launchAsked_askLaunch (s : State) (t t' : Tag) :
    (s.askLaunch t).launchAsked t' = (s.launchAsked t' || decide (t = t')) := by
  simp [State.launchAsked, State.askLaunch, isLaunchOf]

/-- A lookup dropped that is no request leaves the requests. -/
theorem State.requests_dropLaunch (s : State) (t : Tag) (src : Source) :
    (s.dropLookup (isLaunchOf t)).lookups.any (fun l => isRequestOf src l.user) =
      s.lookups.any (fun l => isRequestOf src l.user) := by
  simp only [State.dropLookup_lookups, List.any_filter]
  congr 1
  funext l
  cases hl : l.user <;> simp [isLaunchOf, isRequestOf]

theorem State.countP_dropLookup_le (s : State) (p q : LookupUser → Bool) :
    (s.dropLookup p).lookups.countP (fun l => q l.user) ≤ s.lookups.countP (fun l => q l.user) :=
  List.filter_sublist.countP_le

/-! ### Leaving a place -/

section
variable {s : State} {X : Set Tag} (h : s.PlacedBut X) {t : Tag}
include h

/-- R106, R107: a tag that may stand nowhere leaves a list of the wheel. -/
theorem State.PlacedBut.leaveWheel (ht : t ∈ X) (w : Nat) : (s.leaveWheel t w).PlacedBut X := by
  have sub : ∀ w', (s.leaveWheel t w).wheelList w' ⊆ s.wheelList w' := fun w' x hx => by
    rw [State.wheelList_leaveWheel] at hx
    split at hx
    · next hw => subst hw; exact List.mem_of_mem_erase hx
    · exact hx
  have stays : ∀ w' x, x ≠ t → x ∈ s.wheelList w' → x ∈ (s.leaveWheel t w).wheelList w' :=
    fun w' x hne hx => by
      rw [State.wheelList_leaveWheel]
      split
      · next hw => subst hw; exact (List.mem_erase_of_ne hne).2 hx
      · exact hx
  exact { h with
    placed := fun t' e he hX =>
      { h.placed t' e he hX with
        wheel := fun ho => by
          obtain ⟨w', r, hr, hm⟩ := (h.placed t' e he hX).wheel ho
          exact ⟨w', r, hr, stays w' t' (ne_of_mem_of_not_mem ht hX).symm hm⟩ }
    wheelLists := fun w' => by
      refine ⟨?_, fun t' hm => (h.wheelLists w').2 t' (sub w' hm)⟩
      rw [State.wheelList_leaveWheel]
      split
      · exact (h.wheelLists w).1.erase t
      · exact (h.wheelLists w').1
    waiters := { h.waiters with
      visits := fun v hv => by
        obtain ⟨hv, -⟩ := List.mem_filter.1 hv
        obtain ⟨v0, hv0, rfl⟩ := List.mem_map.1 hv
        obtain ⟨hnd, hall⟩ := h.waiters.visits v0 hv0
        split
        · refine ⟨hnd.erase t, fun x hx => ?_⟩
          obtain ⟨hne, hx⟩ := hnd.mem_erase_iff.1 hx
          exact stays _ x hne (hall x hx)
        · next hw =>
          refine ⟨hnd, fun x hx => ?_⟩
          rw [State.wheelList_leaveWheel, if_neg hw]
          exact hall x hx } }

theorem State.PlacedBut.leaveSlot (ht : t ∈ X) (e : Entry) : (s.leaveSlot t e).PlacedBut X := by
  unfold State.leaveSlot
  split
  · exact h.leaveWheel ht _
  · exact h

/-- R123: a tag that may stand nowhere leaves the bands of a channel. -/
theorem State.PlacedBut.leaveBand (ht : t ∈ X) (c : Chan) : (s.leaveBand t c).PlacedBut X :=
  { h with
    placed := fun t' e he hX =>
      { h.placed t' e he hX with
        queued := fun hq => by
          have hm := (h.placed t' e he hX).queued hq
          rw [State.band_leaveBand]
          split
          · next hk => rw [hk] at hm; exact (List.mem_erase_of_ne (ne_of_mem_of_not_mem ht hX).symm).2 hm
          · exact hm
        onAir := fun ho => by
          rw [State.outstanding_leaveBand]; exact (h.placed t' e he hX).onAir ho }
    bands := fun k p => by
      rw [State.band_leaveBand]
      split
      · next hk =>
        subst hk
        exact ⟨(h.bands k p).1.erase t, fun t' hm => (h.bands k p).2 t' (List.mem_of_mem_erase hm)⟩
      · exact h.bands k p
    waiters := { h.waiters with } }

/-- R90, R91: a tag that may stand nowhere is unbound. -/
theorem State.PlacedBut.unbindLines (ht : t ∈ X) : (s.unbindLines t).PlacedBut X := by
  have bound : ∀ n t', ((s.unbindLines t).line n).bound = some t' ↔ (s.line n).bound = some t' ∧ t' ≠ t :=
    fun n t' => by rw [State.line_unbindLines, Line.unbind_bound]
  have state : ∀ n, ((s.unbindLines t).line n).state = (s.line n).state :=
    fun n => by rw [State.line_unbindLines, Line.unbind_state]
  exact { h with
    placed := fun t' e he hX =>
      { h.placed t' e he hX with
        assembling := fun ha => by
          refine .trans ?_ ((h.placed t' e he hX).assembling ha)
          exact State.sourceHolds_congr e
            (fun n => (bound n t').trans (and_iff_left (ne_of_mem_of_not_mem ht hX).symm)) .rfl }
    lines := fun n t' hn => by rw [state]; exact h.lines n t' ((bound n t').1 hn).1
    waiters := { h.waiters with
      lineRequest := fun n hn => by rw [state]; exact h.waiters.lineRequest n hn } }

/-- R91, R110: the launch of a tag that may stand nowhere is dropped. -/
theorem State.PlacedBut.dropLaunch (ht : t ∈ X) : (s.dropLookup (isLaunchOf t)).PlacedBut X :=
  { h with
    placed := fun t' e he hX =>
      { h.placed t' e he hX with
        assembling := fun ha => by
          rw [State.launchAsked_dropLaunch s (ne_of_mem_of_not_mem ht hX).symm]
          exact (h.placed t' e he hX).assembling ha }
    waiters := { h.waiters with
      lineRequest := fun n hn => h.waiters.lineRequest n (s.requests_dropLaunch t (.line n) ▸ hn)
      portRequest := by rw [s.requests_dropLaunch t .port]; exact h.waiters.portRequest
      requestOnce := fun src => (s.countP_dropLookup_le _ (isRequestOf src)).trans (h.waiters.requestOnce src)
      launch := fun t' ha => by
        refine h.waiters.launch t' ?_
        by_cases heq : t' = t
        · rw [heq, State.launchAsked_dropLaunch_self] at ha; cases ha
        · rw [State.launchAsked_dropLaunch s heq] at ha; exact ha
      launchOnce := fun t' => (s.countP_dropLookup_le _ (isLaunchOf t')).trans (h.waiters.launchOnce t') } }

/-- R91, step 2: a tag that may stand nowhere leaves its place. -/
theorem State.PlacedBut.leavePlace (ht : t ∈ X) (e : Entry) : (s.leavePlace t e).PlacedBut X := by
  unfold State.leavePlace
  cases e.state with
  | assembling => exact (h.unbindLines ht).dropLaunch ht
  | waiting | listening => exact (h.leaveSlot ht e).dropLaunch ht
  | queued => exact (h.leaveBand ht _).dropLaunch ht
  | onAir => exact h.dropLaunch ht

/-- R124: an outstanding list may change but in the tags of the entries that it is the place of. -/
theorem State.PlacedBut.setOutstanding (c : Chan) {ts : List Tag}
    (stays : ∀ t' e, s.entry t' = some e → e.state = .onAir → e.chan = c → t' ∉ X →
      t' ∈ (s.chan c).outstanding → t' ∈ ts) :
    (s.setChan c { s.chan c with outstanding := ts }).PlacedBut X := by
  have band : ∀ k p, ((s.setChan c { s.chan c with outstanding := ts }).chan k).band p =
      (s.chan k).band p := fun k p => by
    by_cases hk : k = c
    · subst hk; rw [State.chan_setChan]; cases p <;> rfl
    · rw [State.chan_setChan_ne s _ hk]
  exact { h with
    placed := fun t' e he hX =>
      { h.placed t' e he hX with
        queued := fun hq => by rw [band]; exact (h.placed t' e he hX).queued hq
        onAir := fun ho => by
          have hm := (h.placed t' e he hX).onAir ho
          by_cases hk : e.chan = c
          · rw [hk, State.chan_setChan]; rw [hk] at hm; exact stays t' e he ho hk hX hm
          · rw [State.chan_setChan_ne s _ hk]; exact hm }
    bands := fun k p => by rw [band]; exact h.bands k p
    waiters := { h.waiters with } }

end

/-! ### Taking a place -/

section
variable {s : State} {X : Set Tag} (h : s.PlacedBut X) {t : Tag} {e : Entry}
include h

/-- R106: a tag joins the list of the wheel slot that its entry records. -/
theorem State.PlacedBut.joinWheel (he : s.entry t = some e) (ho : e.state.onWheel = true) {w r : Nat}
    (hw : e.wheel = some (w, r)) (hn : t ∉ s.wheelList w) :
    (s.setWheelList w (s.wheelList w ++ [t])).PlacedBut X := by
  have list : ∀ w', (s.setWheelList w (s.wheelList w ++ [t])).wheelList w' =
      if w' = w then s.wheelList w ++ [t] else s.wheelList w' := fun w' => by
    split
    · next hw' => subst hw'; exact State.wheelList_setWheelList ..
    · next hw' => exact State.wheelList_setWheelList_ne s _ hw'
  have stays : ∀ w' x, x ∈ s.wheelList w' →
      x ∈ (s.setWheelList w (s.wheelList w ++ [t])).wheelList w' := fun w' x hx => by
    rw [list]
    split
    · next hw' => subst hw'; exact List.mem_append_left _ hx
    · exact hx
  exact { h with
    placed := fun t' x hx hX =>
      { h.placed t' x hx hX with
        wheel := fun hs => by
          obtain ⟨w', r', hr, hm⟩ := (h.placed t' x hx hX).wheel hs
          exact ⟨w', r', hr, stays w' t' hm⟩ }
    wheelLists := fun w' => by
      rw [list]
      split
      · next hw' =>
        subst hw'
        refine ⟨(h.wheelLists w').1.append (List.nodup_singleton t) (by simpa using hn), fun t' hm => ?_⟩
        rcases List.mem_append.1 hm with hm | hm
        · exact (h.wheelLists w').2 t' hm
        · rw [List.mem_singleton.1 hm]; exact ⟨e, r, he, ho, hw⟩
      · exact h.wheelLists w'
    waiters := { h.waiters with
      visits := fun v hv =>
        ⟨(h.waiters.visits v hv).1, fun x hx => stays _ x ((h.waiters.visits v hv).2 x hx)⟩ } }

/-- R114, R123: a tag joins the band of its entry's channel and priority. -/
theorem State.PlacedBut.joinBand (he : s.entry t = some e) (hq : e.state = .queued)
    (hn : t ∉ (s.chan e.chan).band e.priority) :
    (s.setChan e.chan ((s.chan e.chan).enqueue e.priority t)).PlacedBut X := by
  have chan : ∀ k, (s.setChan e.chan ((s.chan e.chan).enqueue e.priority t)).chan k =
      if k = e.chan then (s.chan e.chan).enqueue e.priority t else s.chan k := fun k => by
    split
    · next hk => rw [hk]; exact State.chan_setChan ..
    · next hk => exact State.chan_setChan_ne s _ hk
  exact { h with
    placed := fun t' x hx hX =>
      { h.placed t' x hx hX with
        queued := fun hs => by
          have hm := (h.placed t' x hx hX).queued hs
          rw [chan]
          split
          · next hk =>
            rw [Channel.band_enqueue]
            rw [hk] at hm
            split
            · next hp => rw [hp] at hm; exact List.mem_append_left _ hm
            · exact hm
          · exact hm
        onAir := fun hs => by
          have hm := (h.placed t' x hx hX).onAir hs
          rw [chan]
          split
          · next hk => rw [Channel.outstanding_enqueue, ← hk]; exact hm
          · exact hm }
    bands := fun k p => by
      rw [chan]
      split
      · next hk =>
        subst hk
        rw [Channel.band_enqueue]
        split
        · next hp =>
          subst hp
          refine ⟨(h.bands _ _).1.append (List.nodup_singleton t) (by simpa using hn), fun t' hm => ?_⟩
          rcases List.mem_append.1 hm with hm | hm
          · exact (h.bands _ _).2 t' hm
          · rw [List.mem_singleton.1 hm]; exact ⟨e, he, hq, rfl, rfl⟩
        · exact h.bands _ _
      · exact h.bands k p
    waiters := { h.waiters with } }

/-- R90, R110: the launch of an entry that no source holds is asked for. -/
theorem State.PlacedBut.askLaunch (he : s.entry t = some e)
    (hst : (e.state = .assembling ∧ t ∈ X) ∨ e.state.onWheel = true) (hn : s.launchAsked t = false) :
    (s.askLaunch t).PlacedBut X := by
  have request : ∀ src, (s.askLaunch t).lookups.any (fun l => isRequestOf src l.user) =
      s.lookups.any (fun l => isRequestOf src l.user) := fun src => by
    simp [State.askLaunch, isRequestOf]
  exact { h with
    placed := fun t' x hx hX =>
      { h.placed t' x hx hX with
        assembling := fun ha => by
          have hne : t ≠ t' := by
            rintro rfl
            have heq : some e = some x := he.symm.trans hx
            cases heq
            rcases hst with ⟨-, ht⟩ | ho
            · exact hX ht
            · rw [ha] at ho; cases ho
          rw [State.launchAsked_askLaunch, decide_eq_false hne, Bool.or_false]
          exact (h.placed t' x hx hX).assembling ha }
    waiters := { h.waiters with
      lineRequest := fun n hr => h.waiters.lineRequest n (request (.line n) ▸ hr)
      portRequest := by rw [request .port]; exact h.waiters.portRequest
      requestOnce := fun src => by
        simpa [State.askLaunch, isRequestOf] using h.waiters.requestOnce src
      launch := fun t' ha => by
        rw [State.launchAsked_askLaunch, Bool.or_eq_true, decide_eq_true_eq] at ha
        rcases ha with ha | rfl
        · exact h.waiters.launch t' ha
        · exact ⟨e, he, hst.imp_left And.left⟩
      launchOnce := fun t' => by
        have once := h.waiters.launchOnce t'
        rw [State.askLaunch, State.askLookup_lookups, List.countP_append, List.countP_singleton]
        split
        · next heq =>
          obtain rfl : t = t' := of_decide_eq_true heq
          have zero : s.lookups.countP (fun l => isLaunchOf t l.user) = 0 :=
            List.countP_eq_zero.2 (List.any_eq_false.1 hn)
          omega
        · omega } }

/-- A line record written. It may take up an entry that it is the source of, or lay down one that may stand
nowhere; with its request outstanding it is in LOOKUP. -/
theorem State.PlacedBut.setLine {n : LineNo} {l : Line}
    (binds : ∀ t, l.bound = some t → (l.state = .text ∨ l.state = .check) ∧
      ((s.line n).bound = some t ∨
        t ∈ X ∧ ∃ e, s.entry t = some e ∧ e.state = .assembling ∧ e.source = .line n))
    (unbinds : ∀ t, (s.line n).bound = some t → l.bound = some t ∨ t ∈ X)
    (request : s.lookups.any (fun k => isRequestOf (.line n) k.user) = true → l.state = .lookup) :
    (s.setLine n l).PlacedBut X :=
  { h with
    placed := fun t' x hx hX =>
      { h.placed t' x hx hX with
        assembling := fun ha => by
          refine .trans (State.sourceHolds_congr (s := s) x (fun m => ?_) .rfl)
            ((h.placed t' x hx hX).assembling ha)
          by_cases hm : m = n
          · subst hm
            rw [State.line_setLine]
            exact ⟨fun hb => ((binds t' hb).2).resolve_right fun hr => hX hr.1,
              fun hb => (unbinds t' hb).resolve_right hX⟩
          · rw [State.line_setLine_ne s l hm] }
    lines := fun m t' hb => by
      by_cases hm : m = n
      · subst hm
        rw [State.line_setLine] at hb ⊢
        obtain ⟨hs, hold | ⟨-, hnew⟩⟩ := binds t' hb
        · exact ⟨hs, (h.lines m t' hold).2⟩
        · exact ⟨hs, hnew⟩
      · rw [State.line_setLine_ne s l hm] at hb ⊢
        exact h.lines m t' hb
    waiters := { h.waiters with
      lineRequest := fun m hr => by
        by_cases hm : m = n
        · subst hm; rw [State.line_setLine]; exact request hr
        · rw [State.line_setLine_ne s l hm]; exact h.waiters.lineRequest m hr } }

end

/-! ### Requests and the port's frame -/

/-- Nothing is dropped where no lookup is one to drop. -/
theorem State.dropLookup_of_none {s : State} {p : LookupUser → Bool}
    (h : s.lookups.any (fun l => p l.user) = false) : s.dropLookup p = s := by
  have hf : s.lookups.filter (fun l => !p l.user) = s.lookups :=
    List.filter_eq_self.2 fun l hl => by simpa using List.any_eq_false.1 h l hl
  rw [State.dropLookup, hf]

/-- R7: the oldest lookup answered is the one dropped, where it is the only one of its kind. -/
theorem State.popLookup_eq_dropLookup {s : State} {p : LookupUser → Bool} {l : Lookup} {rest : List Lookup}
    (hl : s.lookups = l :: rest) (hp : p l.user = true)
    (once : s.lookups.countP (fun l => p l.user) ≤ 1) : s.popLookup = s.dropLookup p := by
  have none : ∀ k ∈ rest, ¬ p k.user = true := by
    rw [hl, List.countP_cons, if_pos hp] at once
    exact List.countP_eq_zero.1 (by omega)
  have hf : s.lookups.filter (fun l => !p l.user) = rest := by
    rw [hl, List.filter_cons, hp]
    exact List.filter_eq_self.2 fun k hk => by simpa using none k hk
  rw [State.popLookup, State.dropLookup, hf, hl, List.tail_cons]

theorem isRequestOf_of_ne {src src' : Source} (hne : src ≠ src') {u : LookupUser}
    (h : isRequestOf src u = true) : isRequestOf src' u = false := by
  cases u with
  | admission x _ =>
    have hx : x = src := by simpa [isRequestOf] using h
    simpa [isRequestOf, hx] using hne
  | launch _ | service _ => rfl

/-- A request withdrawn is that of its source alone. -/
theorem State.requests_dropRequest (s : State) {src src' : Source} (hne : src' ≠ src) :
    (s.dropLookup (isRequestOf src)).lookups.any (fun l => isRequestOf src' l.user) =
      s.lookups.any (fun l => isRequestOf src' l.user) := by
  simp only [State.dropLookup_lookups, List.any_filter]
  congr 1
  funext l
  cases hr : isRequestOf src' l.user with
  | false => rw [Bool.and_false]
  | true => rw [isRequestOf_of_ne hne hr]; rfl

theorem State.requests_dropRequest_self (s : State) (src : Source) :
    (s.dropLookup (isRequestOf src)).lookups.any (fun l => isRequestOf src l.user) = false := by
  simp only [State.dropLookup_lookups, List.any_filter, List.any_eq_false]
  intro l _
  cases isRequestOf src l.user <;> simp

/-- A request withdrawn leaves the launches asked for. -/
theorem State.launchAsked_dropRequest (s : State) (src : Source) (t : Tag) :
    (s.dropLookup (isRequestOf src)).launchAsked t = s.launchAsked t := by
  simp only [State.launchAsked, State.dropLookup_lookups, List.any_filter]
  congr 1
  funext l
  cases hl : l.user <;> simp [isLaunchOf, isRequestOf]

section
variable {s : State} {X : Set Tag} (h : s.PlacedBut X)
include h

/-- R72, R82: the request of a line is withdrawn or answered. -/
theorem State.PlacedBut.dropLineRequest (n : LineNo) :
    (s.dropLookup (isRequestOf (.line n))).PlacedBut X :=
  { h with
    placed := fun t e he hX =>
      { h.placed t e he hX with
        assembling := fun ha => by
          rw [State.launchAsked_dropRequest]; exact (h.placed t e he hX).assembling ha }
    waiters := { h.waiters with
      lineRequest := fun m hm => h.waiters.lineRequest m <| by
        by_cases hmn : m = n
        · rw [hmn, State.requests_dropRequest_self] at hm; cases hm
        · rw [State.requests_dropRequest s (by simpa using hmn)] at hm; exact hm
      portRequest := by
        rw [State.requests_dropRequest s (by simp)]; exact h.waiters.portRequest
      requestOnce := fun src => (s.countP_dropLookup_le _ (isRequestOf src)).trans (h.waiters.requestOnce src)
      launch := fun t ha => h.waiters.launch t (State.launchAsked_dropRequest s _ t ▸ ha)
      launchOnce := fun t => (s.countP_dropLookup_le _ (isLaunchOf t)).trans (h.waiters.launchOnce t) } }

/-- R99: the frame goes and its request is withdrawn; an admitted page must be one that may stand nowhere. -/
theorem State.PlacedBut.closeFrame (held : ∀ t, s.port.holds t → t ∈ X) :
    ((s.dropLookup (isRequestOf .port)).setFrame none).PlacedBut X :=
  { h with
    placed := fun t e he hX =>
      { h.placed t e he hX with
        assembling := fun ha => by
          have asked := State.launchAsked_dropRequest s .port t
          refine .trans ?_ (((h.placed t e he hX).assembling ha).trans (by rw [← asked]; rfl))
          exact State.sourceHolds_congr e (fun _ => .rfl)
            (iff_of_false (Port.not_holds_of_no_frame rfl t) fun hh => hX (held t hh)) }
    frame := fun f t v hf => by cases hf
    waiters := { h.waiters with
      lineRequest := fun n hn => h.waiters.lineRequest n
        (State.requests_dropRequest s (src' := .line n) (src := .port) (by simp) ▸ hn)
      portRequest := by
        refine iff_of_false (fun hr => ?_) fun ⟨f, hf, _⟩ => by cases hf
        exact Bool.false_ne_true ((State.requests_dropRequest_self s .port).symm.trans hr)
      requestOnce := fun src => (s.countP_dropLookup_le _ (isRequestOf src)).trans (h.waiters.requestOnce src)
      launch := fun t ha => h.waiters.launch t (State.launchAsked_dropRequest s .port t ▸ ha)
      launchOnce := fun t => (s.countP_dropLookup_le _ (isLaunchOf t)).trans (h.waiters.launchOnce t)
      frames := fun f hf => by cases hf
      quiet := fun _ => rfl } }

/-- R99: a frame without an outstanding request goes. -/
theorem State.PlacedBut.closeAnswered (held : ∀ t, s.port.holds t → t ∈ X)
    (answered : ∀ f, s.port.frame = some f → f.outcome ≠ .outstanding) : (s.setFrame none).PlacedBut X := by
  have none : s.lookups.any (fun l => isRequestOf .port l.user) = false := by
    by_contra hr
    obtain ⟨f, hf, ho⟩ := h.waiters.portRequest.1 (by simpa using hr)
    exact answered f hf ho
  have hc := h.closeFrame held
  rwa [State.dropLookup_of_none none] at hc

/-- R161, R97: with no frame open one is opened; an admitted page must be one that may stand nowhere. -/
theorem State.PlacedBut.openFrame (hf : s.port.frame = none) (quiet : ¬ s.clears) {g : Frame}
    (form : g.outcome ≠ .none → g.cmd = .submitPage ∧ 5 ≤ g.args.length ∧ g.misq = false)
    (answered : g.outcome ≠ .outstanding)
    (admitted : ∀ t v, g.outcome = .admitted t v →
      t ∈ X ∧ ∃ e, s.entry t = some e ∧ e.state = .assembling ∧ e.source = .port) :
    (s.setFrame (some g)).PlacedBut X :=
  { h with
    placed := fun t e he hX =>
      { h.placed t e he hX with
        assembling := fun ha => by
          refine .trans ?_ ((h.placed t e he hX).assembling ha)
          refine State.sourceHolds_congr e (fun _ => .rfl) (iff_of_false ?_ (Port.not_holds_of_no_frame hf t))
          rintro ⟨f, v, hg, ho⟩
          cases hg
          exact hX (admitted t v ho).1 }
    frame := fun f t v hg ho => by cases hg; exact (admitted t v ho).2
    waiters := { h.waiters with
      portRequest := by
        refine iff_of_false (fun hr => ?_) fun ⟨f, hg, ho⟩ => by cases hg; exact answered ho
        obtain ⟨f, hs, -⟩ := h.waiters.portRequest.1 hr
        rw [hf] at hs; cases hs
      frames := fun f hg ho => by cases hg; exact form ho
      quiet := fun hc => absurd hc quiet } }

/-- A new request is its source's only one. -/
theorem State.requestOnce_askLookup {src : Source} (hdr : Header)
    (hn : s.lookups.any (fun l => isRequestOf src l.user) = false) (src' : Source) :
    (s.askLookup (.admission src hdr)).lookups.countP (fun l => isRequestOf src' l.user) ≤ 1 := by
  rw [State.askLookup_lookups, List.countP_append, List.countP_singleton]
  split
  · next heq =>
    obtain rfl : src = src' := of_decide_eq_true heq
    have zero : s.lookups.countP (fun l => isRequestOf src l.user) = 0 :=
      List.countP_eq_zero.2 (List.any_eq_false.1 hn)
    omega
  · exact h.waiters.requestOnce src'

/-- R97: with no frame open a SUBMIT PAGE frame is opened whose request is outstanding. -/
theorem State.PlacedBut.openOutstanding (hf : s.port.frame = none) (quiet : ¬ s.clears) {g : Frame}
    (form : g.cmd = .submitPage ∧ 5 ≤ g.args.length ∧ g.misq = false) (ho : g.outcome = .outstanding)
    (hdr : Header) : ((s.setFrame (some g)).askLookup (.admission .port hdr)).PlacedBut X := by
  have none : s.lookups.any (fun l => isRequestOf .port l.user) = false := by
    by_contra hr
    obtain ⟨f, hs, -⟩ := h.waiters.portRequest.1 (by simpa using hr)
    rw [hf] at hs; cases hs
  have notHeld : ∀ t, ¬ (s.setFrame (some g)).port.holds t := by
    rintro t ⟨f, v, hg, hv⟩
    cases hg
    rw [ho] at hv; cases hv
  have launch : ∀ t, State.launchAsked ((s.setFrame (some g)).askLookup (.admission .port hdr)) t =
      s.launchAsked t := fun t => by simp [State.launchAsked, isLaunchOf]
  exact { h with
    placed := fun t e he hX =>
      { h.placed t e he hX with
        assembling := fun ha => by
          rw [launch]
          refine .trans ?_ ((h.placed t e he hX).assembling ha)
          exact State.sourceHolds_congr e (fun _ => .rfl)
            (iff_of_false (notHeld t) (Port.not_holds_of_no_frame hf t)) }
    frame := fun f t v hg hv => absurd ⟨f, v, hg, hv⟩ (notHeld t)
    waiters := { h.waiters with
      lineRequest := fun n hr => h.waiters.lineRequest n (by simpa [isRequestOf] using hr)
      portRequest := by
        refine iff_of_true ?_ ⟨g, rfl, ho⟩
        simp [isRequestOf]
      requestOnce := State.requestOnce_askLookup h hdr none
      launch := fun t ha => h.waiters.launch t (launch t ▸ ha)
      launchOnce := fun t => by simpa [isLaunchOf] using h.waiters.launchOnce t
      frames := fun f hg _ => by cases hg; exact form
      quiet := fun hc => absurd hc quiet } }

/-- R65, R78: a line in HEADER hands in its request. -/
theorem State.PlacedBut.askLine {n : LineNo} (hn : (s.line n).state = .lookup) (hdr : Header)
    (none : s.lookups.any (fun l => isRequestOf (.line n) l.user) = false) :
    (s.askLookup (.admission (.line n) hdr)).PlacedBut X := by
  have launch : ∀ t, State.launchAsked (s.askLookup (.admission (.line n) hdr)) t =
      s.launchAsked t := fun t => by simp [State.launchAsked, isLaunchOf]
  exact { h with
    placed := fun t e he hX =>
      { h.placed t e he hX with
        assembling := fun ha => by rw [launch]; exact (h.placed t e he hX).assembling ha }
    waiters := { h.waiters with
      lineRequest := fun m hr => by
        by_cases hm : m = n
        · subst hm; exact hn
        · exact h.waiters.lineRequest m (by simpa [isRequestOf, Ne.symm hm] using hr)
      portRequest := by
        refine .trans ?_ h.waiters.portRequest
        simp [isRequestOf]
      requestOnce := State.requestOnce_askLookup h hdr none
      launch := fun t ha => h.waiters.launch t (launch t ▸ ha)
      launchOnce := fun t => by simpa [isLaunchOf] using h.waiters.launchOnce t } }

/-- R98, R161: the open frame takes bytes, its outcome as it is. -/
theorem State.PlacedBut.keepFrame {f g : Frame} (hf : s.port.frame = some f) (ho : g.outcome = f.outcome)
    (form : g.outcome ≠ .none → g.cmd = .submitPage ∧ 5 ≤ g.args.length ∧ g.misq = false) :
    (s.setFrame (some g)).PlacedBut X := by
  have holds : ∀ t, (s.setFrame (some g)).port.holds t ↔ s.port.holds t := by
    intro t
    simp only [Port.holds, State.setFrame_port, hf, Option.some.injEq]
    exact exists_comm.trans ((exists_congr fun v => by
      constructor
      · rintro ⟨x, rfl, hx⟩; exact ⟨f, rfl, ho ▸ hx⟩
      · rintro ⟨x, rfl, hx⟩; exact ⟨g, rfl, ho.trans hx⟩).trans exists_comm)
  exact { h with
    placed := fun t e he hX =>
      { h.placed t e he hX with
        assembling := fun ha => by
          refine .trans ?_ ((h.placed t e he hX).assembling ha)
          exact State.sourceHolds_congr e (fun _ => .rfl) (holds t) }
    frame := fun x t v hg hx => by cases hg; exact h.frame f t v hf (ho ▸ hx)
    waiters := { h.waiters with
      portRequest := by
        refine h.waiters.portRequest.trans ?_
        simp only [State.setFrame_port, hf, Option.some.injEq]
        exact ⟨fun ⟨x, hx, hs⟩ => ⟨g, rfl, by rw [ho, hx, hs]⟩,
          fun ⟨x, hx, hs⟩ => ⟨f, rfl, by rw [← ho, hx, hs]⟩⟩
      frames := fun x hg hx => by cases hg; exact form hx
      quiet := fun hc => by
        have hn := h.waiters.quiet hc
        rw [hf] at hn; cases hn } }

end

end Sys2Proof.Machine
end

/-! ## Endings, schedulings and frames lost keep the places (R91, R99, R105, R132) -/

section

namespace Sys2Proof.Machine

/-! ### An operation that takes time begins -/

theorem State.places_beginOp (s : State) (o : Operation) : (s.beginOp o).places = s.places := by
  simp [State.places, State.beginOp, List.filter_map, Function.comp_def]

/-- R16: an operation that is neither the autoclear nor a purge. -/
theorem State.SamePlaces.beginOp {s u : State} (h : s.SamePlaces u) {o : Operation} (ha : o ≠ .autoclear)
    (hp : ∀ i, o ≠ .purge i) : s.SamePlaces (u.beginOp o) :=
  h.trans (.of_op (by simpa [State.clears] using ⟨ha, hp⟩) (u.places_beginOp o))

theorem State.SamePlaces.lowerLive (s : State) (a : Nat) : s.SamePlaces (s.lowerLive a) := by
  have lowered : s.SamePlaces (s.updateRecord a fun r => { r with live := r.live - 1 }) := .of_eq rfl rfl
  unfold State.lowerLive
  dsimp only
  split
  · split
    · rw [State.endingRemoval_eq]
      split
      · exact lowered.beginOp (by simp) (by simp)
      · split
        · exact lowered
        · exact lowered.trans (.of_eq rfl rfl)
    · exact lowered
  · exact lowered

/-! ### The ending of a page -/

theorem State.SamePlaces.endingEvent (s : State) (i : Nat) (k : Ending) (c r : Nat) :
    s.SamePlaces (s.endingEvent i k c r) := by
  rw [State.endingEvent_frame]; exact .of_eq rfl rfl

theorem State.SamePlaces.freeSlot {s u : State} (h : s.SamePlaces u) (i : Nat) (k : Ending) :
    (s.freeSlot i k).SamePlaces (u.freeSlot i k) :=
  ⟨(congrArg (fun v => State.freeSlot v i k) h.places :), h.clears⟩

theorem State.SamePlaces.setFrame {s u : State} (h : s.SamePlaces u) (f : Option Frame) :
    (s.setFrame f).SamePlaces (u.setFrame f) :=
  ⟨(congrArg (fun v => State.setFrame v f) h.places :), h.clears⟩

/-- An entry leaves its place whatever the port and the pool hold. -/
theorem State.leavePlace_withPool (s : State) (t : Tag) (e : Entry) (p : Port) (free : List Nat) (hold : Bool) :
    State.leavePlace { s with port := p, freeBlocks := free, poolHold := hold } t e =
      { s.leavePlace t e with port := p, freeBlocks := free, poolHold := hold } := by
  have slot : State.leaveSlot { s with port := p, freeBlocks := free, poolHold := hold } t e =
      { s.leaveSlot t e with port := p, freeBlocks := free, poolHold := hold } := by
    unfold State.leaveSlot
    cases e.wheel <;> rfl
  unfold State.leavePlace
  cases e.state with
  | assembling | queued | onAir => rfl
  | waiting | listening => exact congrArg (State.dropLookup · _) slot

/-- R91: as far as the places go, an ending is the place left and the slot freed. -/
theorem State.SamePlaces.endEntry {s : State} {t : Tag} {e : Entry} (k : Ending) (he : s.entry t = some e) :
    ((s.leavePlace t e).freeSlot t.slot k).SamePlaces (s.endEntry k t) := by
  have left : (s.leavePlace t e).SamePlaces ((s.giveBlocks e.blocks).leavePlace t e) := by
    have given : s.giveBlocks e.blocks =
        { s with
          port := (s.giveBlocks e.blocks).port, freeBlocks := (s.giveBlocks e.blocks).freeBlocks
          poolHold := (s.giveBlocks e.blocks).poolHold } := by
      rw [State.giveBlocks_eq]
    have frame : (s.giveBlocks e.blocks).port.frame = s.port.frame := by rw [State.giveBlocks_eq]
    have hl := s.leavePlace_withPool t e (s.giveBlocks e.blocks).port (s.giveBlocks e.blocks).freeBlocks
      (s.giveBlocks e.blocks).poolHold
    rw [← given] at hl
    rw [hl]
    exact .of_eq (by simp only [State.places, State.leavePlace_port, frame]) rfl
  rw [State.endEntry_of_some k he]
  exact ((left.trans (.endingEvent ..)).trans (.lowerLive ..)).freeSlot _ _

/-- R106: the tag of an entry that has left its wheel slot is on no list of the wheel. -/
theorem State.PlacedBut.not_mem_leaveSlot {s : State} {X : Set Tag} (h : s.PlacedBut X) {t : Tag} {e : Entry}
    (he : s.entry t = some e) (w : Nat) : t ∉ (s.leaveSlot t e).wheelList w := by
  intro hm
  cases hw : e.wheel with
  | none =>
    rw [State.leaveSlot, hw] at hm
    obtain ⟨-, r, hr⟩ := h.wheel_of_mem he hm
    rw [hw] at hr; cases hr
  | some x =>
    rw [State.leaveSlot, hw] at hm
    dsimp only at hm
    rw [State.wheelList_leaveWheel] at hm
    split at hm
    · exact (h.wheelLists _).1.not_mem_erase hm
    · next hne =>
      obtain ⟨-, r, hr⟩ := h.wheel_of_mem he hm
      rw [hw] at hr; cases hr
      exact hne rfl

/-- An entry that has left its place stands nowhere. -/
theorem State.PlacedBut.unplaced_leavePlace {s : State} {X : Set Tag} (h : s.PlacedBut X) {t : Tag} {e : Entry}
    (he : s.entry t = some e) (hh : ¬ s.port.holds t) : (s.leavePlace t e).Unplaced t := by
  obtain ⟨lines, chans, wheel, -⟩ := s.leavePlace_places t e
  exact {
    bound := fun n => by
      rw [State.line, lines]
      split
      · next hst =>
        rw [← State.line, State.line_unbindLines]
        exact fun hb => (Line.unbind_bound.1 hb).2 rfl
      · next hst => exact h.not_bound he hst n
    held := by rw [State.leavePlace_port]; exact hh
    wheel := fun w => by
      rw [State.wheelList, wheel]
      split
      · exact h.not_mem_leaveSlot he w
      · next hst =>
        intro hm
        have ho := (h.wheel_of_mem he hm).1
        cases hs : e.state <;> rw [hs] at ho hst <;> simp [PageState.onWheel] at ho hst
    bands := fun c p => by
      rw [State.chan, chans]
      split
      · rw [← State.chan, State.band_leaveBand]
        intro hm
        split at hm
        · exact (h.bands _ _).1.not_mem_erase hm
        · next hne => exact hne (h.band_of_mem he hm).2.1.symm
      · next hst => exact fun hm => hst (h.band_of_mem he hm).1
    asked := by
      rw [State.launchAsked, State.leavePlace_lookups]
      exact State.launchAsked_dropLaunch_self s t }

/-- R91: the place left and the slot freed, for a page that the port's frame does not hold. -/
theorem State.PlacedBut.ended {s : State} {X : Set Tag} {t : Tag} {e : Entry} (h : s.PlacedBut (insert t X))
    (k : Ending) (he : s.entry t = some e) (hh : ¬ s.port.holds t) :
    ((s.leavePlace t e).freeSlot t.slot k).PlacedBut X := by
  have ht : t ∈ insert t X := Set.mem_insert t X
  have live : (s.leavePlace t e).entry t = some e :=
    (State.entry_congr (State.leavePlace_slots s t e) t).trans he
  refine ((h.leavePlace ht e).freeSlot ht (h.unplaced_leavePlace he hh) live k).settle fun e' he' => ?_
  have free : ((s.leavePlace t e).freeSlot t.slot k).entry t = none := by
    rw [State.entry, State.freeSlot, State.slot_setSlot, ite_self]
  rw [free] at he'; cases he'

/-- R91: the ending of a page that the port's frame does not hold. -/
theorem State.PlacedBut.endEntry {s : State} {X : Set Tag} {t : Tag} (h : s.PlacedBut (insert t X)) (k : Ending)
    (hh : ¬ s.port.holds t) : (s.endEntry k t).PlacedBut X := by
  cases he : s.entry t with
  | none => rw [State.endEntry_of_none k he]; exact h.settle fun e he' => by rw [he] at he'; cases he'
  | some e => exact (h.ended k he hh).congr (.endEntry k he)

theorem State.dropFrame_frame (s : State) : s.dropFrame.port.frame = none := by
  cases hf : s.port.frame with
  | none => rw [State.dropFrame_frame_none hf]; exact hf
  | some f => simp only [State.dropFrame, hf]; rfl

section
variable {s : State} (h : s.PlacesOk)
include h

theorem State.PlacesOk.but (X : Set Tag) : s.PlacedBut X :=
  (State.placesOk_iff.1 h).mono (Set.empty_subset X)

theorem State.PlacesOk.endEntry {t : Tag} (k : Ending) (hh : ¬ s.port.holds t) : (s.endEntry k t).PlacesOk :=
  State.placesOk_iff.2 (State.PlacedBut.endEntry (h.but _) k hh)

/-- R99: an incomplete frame goes, with its request or its page. -/
theorem State.PlacesOk.dropFrame : s.dropFrame.PlacesOk := by
  cases hf : s.port.frame with
  | none => rw [State.dropFrame_frame_none hf]; exact h
  | some f =>
    -- the frame of an outcome that is no admission holds no page
    have unheld : (∀ t v, f.outcome ≠ .admitted t v) → ∀ t, s.port.holds t → t ∈ (∅ : Set Tag) := by
      rintro hn t ⟨g, v, hg, ho⟩
      rw [hf] at hg; cases hg
      exact absurd ho (hn t v)
    have answered : f.outcome ≠ .outstanding → ∀ g, s.port.frame = some g → g.outcome ≠ .outstanding :=
      fun hn g hg => by rw [hf] at hg; cases hg; exact hn
    simp only [State.dropFrame, hf]
    cases ho : f.outcome with
    | none | refused =>
      exact State.placesOk_iff.2 ((h.but _).closeAnswered (unheld (by simp [ho])) (answered (by simp [ho])))
    | outstanding => exact State.placesOk_iff.2 ((h.but _).closeFrame (unheld (by simp [ho])))
    | admitted t v =>
      obtain ⟨e, he, -⟩ := (h.but ∅).frame f t v hf ho
      have closed : (s.setFrame none).PlacedBut (insert t ∅) := by
        refine (h.but _).closeAnswered ?_ (answered (by simp [ho]))
        rintro t' ⟨g, v', hg, ho'⟩
        rw [hf] at hg; cases hg
        rw [ho] at ho'; cases ho'
        exact Set.mem_insert ..
      have ended := closed.ended .aborted (e := e) he (Port.not_holds_of_no_frame rfl t)
      have left : (s.setFrame none).leavePlace t e = (s.leavePlace t e).setFrame none := by
        have hl := s.leavePlace_withPool t e { s.port with frame := none } s.freeBlocks s.poolHold
        refine hl.trans ?_
        rw [← State.leavePlace_freeBlocks s t e, ← State.leavePlace_poolHold s t e]
        simp only [State.setFrame, State.leavePlace_port]
      rw [left] at ended
      exact State.placesOk_iff.2 (ended.congr ((State.SamePlaces.endEntry .aborted he).setFrame none))

theorem State.PlacesOk.abandon : s.abandon.PlacesOk ∧ s.abandon.port.frame = none := by
  unfold State.abandon
  split
  · exact ⟨h.dropFrame.congr (.of_eq rfl rfl), s.dropFrame_frame⟩
  · next hf => exact ⟨h, by simpa using hf⟩

end

/-! ### Scheduling and launches -/

theorem State.Unplaced.congr {s u : State} {t : Tag} (h : s.Unplaced t) (same : s.SamePlaces u) :
    u.Unplaced t where
  bound n := by rw [same.lineBound]; exact h.bound n
  held := by rw [Port.holds, same.frame]; exact h.held
  wheel w := by rw [same.wheelList]; exact h.wheel w
  bands c p := by rw [same.band]; exact h.bands c p
  asked := by rw [same.launchAsked]; exact h.asked

/-- R106: an entry that is in no band, with no source and no launch, stands nowhere once it has left its wheel
slot. -/
theorem State.PlacedBut.unplaced_leaveSlot {s : State} {X : Set Tag} (h : s.PlacedBut X) {t : Tag} {e : Entry}
    (he : s.entry t = some e) (hb : ∀ n, (s.line n).bound ≠ some t) (hh : ¬ s.port.holds t)
    (hq : ∀ c p, t ∉ (s.chan c).band p) (ha : s.launchAsked t = false) : (s.leaveSlot t e).Unplaced t := by
  have same : (s.leaveSlot t e).lines = s.lines ∧ (s.leaveSlot t e).chans = s.chans ∧
      (s.leaveSlot t e).port = s.port ∧ (s.leaveSlot t e).lookups = s.lookups := by
    unfold State.leaveSlot
    cases e.wheel <;> exact ⟨rfl, rfl, rfl, rfl⟩
  obtain ⟨lines, chans, port, lookups⟩ := same
  exact {
    bound := fun n => by rw [State.line, lines]; exact hb n
    held := by rw [port]; exact hh
    wheel := h.not_mem_leaveSlot he
    bands := fun c p => by rw [State.chan, chans]; exact hq c p
    asked := by rw [State.launchAsked, lookups]; exact ha }

theorem State.entry_leaveSlot (s : State) (t t' : Tag) (e : Entry) :
    (s.leaveSlot t e).entry t' = s.entry t' := by
  refine State.entry_congr ?_ t'
  unfold State.leaveSlot
  cases e.wheel <;> rfl

/-- R105: an entry that stands nowhere but on the wheel is scheduled. -/
theorem State.PlacedBut.schedule {s : State} {X : Set Tag} {t : Tag} {e₀ : Entry}
    (h : s.PlacedBut (insert t X)) (he : s.entry t = some e₀) (e : Entry) {st : PageState}
    (hst : st.onWheel = true) (d : Nat) (hu : (s.leaveSlot t e).Unplaced t) :
    (s.schedule t e st d).PlacedBut X := by
  have ht : t ∈ insert t X := Set.mem_insert t X
  have live : (s.leaveSlot t e).entry t = some e₀ := (s.entry_leaveSlot t t e).trans he
  obtain ⟨w, hw⟩ : ∃ w, w = (s.head + delayOf e.deadline s.time d) % 64 := ⟨_, rfl⟩
  obtain ⟨e', he'⟩ : ∃ e', e' = { e with
      state := st, wheel := some (w, (delayOf e.deadline s.time d - 1) / 64) } := ⟨_, rfl⟩
  have rewritten := (h.leaveSlot ht e).setEntry ht hu live e'
  have new : ((s.leaveSlot t e).setEntry t.slot e').entry t = some e' := State.entry_setEntry live e'
  have joined := rewritten.joinWheel new (w := w) (by rw [he']; exact hst) (by rw [he']) (hu.wheel w)
  have eq : s.schedule t e st d =
      ((s.leaveSlot t e).setEntry t.slot e').setWheelList w
        (((s.leaveSlot t e).setEntry t.slot e').wheelList w ++ [t]) := by
    rw [he', hw]; rfl
  rw [eq]
  refine joined.settle fun x hx => ?_
  have hx' : some e' = some x := new.symm.trans hx
  cases hx'
  have state : e'.state = st := by rw [he']
  exact {
    assembling := fun ha => by rw [← state, ha] at hst; cases hst
    wheel := fun _ => ⟨w, _, by rw [he'], by rw [State.wheelList_setWheelList]; simp⟩
    offWheel := fun ho => by rw [state, hst] at ho; cases ho
    queued := fun hq => by rw [← state, hq] at hst; cases hst
    onAir := fun ho => by rw [← state, ho] at hst; cases hst }

/-- R91, R105: an entry with no wheel slot is scheduled from where it stands, which is nowhere. -/
theorem State.PlacedBut.schedule_offWheel {s : State} {X : Set Tag} {t : Tag} {e₀ : Entry}
    (h : s.PlacedBut (insert t X)) (he : s.entry t = some e₀) {e : Entry} (hw : e.wheel = none) {st : PageState}
    (hst : st.onWheel = true) (d : Nat) (hu : s.Unplaced t) : (s.schedule t e st d).PlacedBut X :=
  h.schedule he e hst d (by rw [State.leaveSlot, hw]; exact hu)

theorem State.Unplaced.unbindLines {s : State} {t : Tag} (h : s.Unplaced t) : (s.unbindLines t).Unplaced t :=
  { h with
    bound := fun n => by rw [State.line_unbindLines]; exact fun hb => (Line.unbind_bound.1 hb).2 rfl }

/-- R114: an entry that stands nowhere but on the wheel is placed on its air queue. -/
theorem State.PlacedBut.placeLaunch {s : State} {X : Set Tag} {t : Tag} {e : Entry}
    (h : s.PlacedBut (insert t X)) (he : s.entry t = some e) (hu : (s.leaveSlot t e).Unplaced t)
    (a : Attempt) : (s.placeLaunch t e a).PlacedBut X := by
  have ht : t ∈ insert t X := Set.mem_insert t X
  obtain ⟨e', he'⟩ : ∃ e', e' = { e with state := .queued, attempt := some a, wheel := none } := ⟨_, rfl⟩
  have live : ((s.leaveSlot t e).unbindLines t).entry t = some e := (s.entry_leaveSlot t t e).trans he
  have rewritten := ((h.leaveSlot ht e).unbindLines ht).setEntry ht hu.unbindLines live e'
  have new : (((s.leaveSlot t e).unbindLines t).setEntry t.slot e').entry t = some e' :=
    State.entry_setEntry live e'
  have state : e'.state = .queued := by rw [he']
  have joined := rewritten.joinBand new state (hu.bands _ _)
  have eq : s.placeLaunch t e a =
      (((s.leaveSlot t e).unbindLines t).setEntry t.slot e').setChan e'.chan
        (((((s.leaveSlot t e).unbindLines t).setEntry t.slot e').chan e'.chan).enqueue e'.priority t) := by
    rw [he']; rfl
  rw [eq]
  refine joined.settle fun x hx => ?_
  have hx' : some e' = some x := new.symm.trans hx
  cases hx'
  exact {
    assembling := fun ha => by rw [state] at ha; cases ha
    wheel := fun ho => by rw [state] at ho; cases ho
    offWheel := fun _ => by rw [he']
    queued := fun _ => by
      rw [State.chan_setChan, Channel.band_enqueue, if_pos rfl]; simp
    onAir := fun ho => by rw [state] at ho; cases ho }

/-- R90: an entry that stands nowhere has its launch asked for. -/
theorem State.PlacedBut.askLaunch_assembling {s : State} {X : Set Tag} {t : Tag} {e : Entry}
    (h : s.PlacedBut (insert t X)) (he : s.entry t = some e) (hu : s.Unplaced t) (ha : e.state = .assembling)
    (hw : e.wheel = none) : (s.askLaunch t).PlacedBut X := by
  refine (h.askLaunch he (.inl ⟨ha, Set.mem_insert ..⟩) hu.asked).settle fun x hx => ?_
  have hx' : some e = some x := he.symm.trans hx
  cases hx'
  exact {
    assembling := fun _ => by
      refine iff_of_false (hu.not_sourceHolds e) ?_
      rw [State.launchAsked_askLaunch, decide_eq_true rfl, Bool.or_true]
      exact Bool.noConfusion
    wheel := fun ho => by rw [ha] at ho; cases ho
    offWheel := fun _ => hw
    queued := fun hq => by rw [ha] at hq; cases hq
    onAir := fun ho => by rw [ha] at ho; cases ho }

/-- R90: the completion of an entry that no frame holds and no launch waits for. -/
theorem State.PlacedBut.completeEntry {s : State} {X : Set Tag} {t : Tag} {e : Entry}
    (h : s.PlacedBut (insert t X)) (he : s.entry t = some e) (ha : e.state = .assembling)
    (hw : e.wheel = none) (hh : ¬ s.port.holds t) (asked : s.launchAsked t = false) :
    (s.completeEntry t).PlacedBut X := by
  have unplaced : (s.unbindLines t).Unplaced t := {
    bound := fun n => by rw [State.line_unbindLines]; exact fun hb => (Line.unbind_bound.1 hb).2 rfl
    held := hh
    wheel := fun w hm => by
      have ho := (h.wheel_of_mem he hm).1
      rw [ha] at ho; cases ho
    bands := fun c p hm => by
      have hq := (h.band_of_mem he hm).1
      rw [ha] at hq; cases hq
    asked := asked }
  exact (h.unbindLines (Set.mem_insert ..)).askLaunch_assembling he unplaced ha hw

end Sys2Proof.Machine
end

/-! ## The rows of the Intake Lines, of SUBMIT PAGE and of the Admission Unit keep the places (R58 to R84, R97 to
R99) -/

section

namespace Sys2Proof.Machine

/-! ### Lines -/

/-- A line record that keeps its state and its binding is the same place. -/
theorem State.SamePlaces.setLine {s : State} {n : LineNo} {l : Line} (place : l.place = (s.line n).place) :
    s.SamePlaces (s.setLine n l) := by
  refine .of_eq ?_ rfl
  have lines : ∀ m, ((s.lines.put n l).get m).place = (s.lines.get m).place := fun m => by
    by_cases hm : m = n
    · subst hm; rw [Quad.get_put]; exact place
    · rw [Quad.get_put_ne _ _ hm]
  obtain ⟨h0, h1, h2, h3⟩ := And.intro (lines 0) (And.intro (lines 1) (And.intro (lines 2) (lines 3)))
  simp only [Quad.get] at h0 h1 h2 h3
  simp only [State.places, State.setLine, h0, h1, h2, h3]

theorem Line.takeText_state (l : Line) (b : Byte) (h : Nat) :
    (l.takeText b h).state = .text ∨ (l.takeText b h).state = .check := by
  unfold Line.takeText Line.restart
  dsimp only
  split
  · exact .inr rfl
  · exact .inl rfl

theorem Line.admittedLine_state (l : Line) (len : Nat) (t : Tag) :
    (l.admittedLine len t).state = .text ∨ (l.admittedLine len t).state = .check := by
  unfold Line.admittedLine Line.restart
  dsimp only
  split
  · exact .inr rfl
  · exact .inl rfl

section
variable {s : State} (h : s.PlacesOk) {n : LineNo}
include h

/-- R66: a line that neither writes text nor waits for its check byte has no entry. -/
theorem State.PlacesOk.bound_none (ht : (s.line n).state ≠ .text) (hc : (s.line n).state ≠ .check) :
    (s.line n).bound = none := by
  cases hb : (s.line n).bound with
  | none => rfl
  | some t => exact absurd (h.placed.lines n t hb).1 (by simp [ht, hc])

/-- A line record that keeps its binding; it leaves LOOKUP only with its request answered. -/
theorem State.PlacesOk.setLine {l : Line} (bound : l.bound = (s.line n).bound)
    (bounded : l.bound ≠ none → l.state = .text ∨ l.state = .check)
    (request : (s.line n).state = .lookup → l.state = .lookup) : (s.setLine n l).PlacesOk :=
  State.placesOk_iff.2 <| (h.but ∅).setLine
    (fun t hb => ⟨bounded (by rw [hb]; exact Option.some_ne_none t), .inl (bound ▸ hb)⟩)
    (fun t hb => .inl (bound.trans hb)) (fun hr => request (h.waiters.lineRequest n hr))

/-- A line record without a binding, before and after. -/
theorem State.PlacesOk.setLine_unbound {l : Line} (old : (s.line n).bound = none) (new : l.bound = none)
    (request : (s.line n).state = .lookup → l.state = .lookup) : (s.setLine n l).PlacesOk :=
  h.setLine (new.trans old.symm) (fun hn => absurd new hn) request

/-- R66: the entry that a line is assembling is not the port's. -/
theorem State.PlacesOk.not_holds_of_bound {t : Tag} (hb : (s.line n).bound = some t) :
    ¬ s.port.holds t := fun hh => by
  obtain ⟨-, e, he, -, hsrc⟩ := h.placed.lines n t hb
  have hport := ((h.but ∅).source_of_holds he hh).2
  rw [hsrc] at hport; cases hport

/-- R110: an entry that its source holds has no launch asked for. -/
theorem State.PlacesOk.not_asked {t : Tag} {e : Entry} (he : s.entry t = some e) (ha : e.state = .assembling)
    (hs : s.sourceHolds t e) : s.launchAsked t = false := (h.placed.assembling t e he ha).1 hs

theorem State.PlacesOk.wheel_none {t : Tag} {e : Entry} (he : s.entry t = some e) (ha : e.state = .assembling) :
    e.wheel = none := (h.placed.wheel t e he).2 (by rw [ha]; rfl)

omit h in
/-- R91: a line is unbound from the entry that ends. -/
theorem State.bound_endEntry {t : Tag} {e : Entry} (k : Ending) (he : s.entry t = some e)
    (ha : e.state = .assembling) (hb : (s.line n).bound = some t) : ((s.endEntry k t).line n).bound = none := by
  rw [State.line, State.endEntry_lines k he, (s.leavePlace_places t e).1, if_pos ha, ← State.line,
    State.line_unbindLines, Line.unbind, if_pos hb]

/-- R72: a line abort. -/
theorem State.PlacesOk.abortLine (c : AbortCause) : (s.abortLine n c).PlacesOk := by
  have unbound : ((s.line n).abort c).bound = none := by
    unfold Line.abort; dsimp only; split <;> rfl
  -- the line's request withdrawn, and the line written once it has no entry
  have rest : ∀ u : State, u.PlacesOk → (u.line n).bound = none →
      ((u.dropLookup (isRequestOf (.line n))).setLine n ((s.line n).abort c)).PlacesOk := fun u hu hb =>
    State.placesOk_iff.2 <| ((hu.but ∅).dropLineRequest n).setLine
      (fun t ht => by rw [unbound] at ht; cases ht)
      (fun t ht => by
        have ht' : (u.line n).bound = some t := ht
        rw [hb] at ht'; cases ht')
      (fun hr => absurd hr (by rw [State.requests_dropRequest_self]; exact Bool.false_ne_true))
  unfold State.abortLine
  dsimp only
  split
  · next t hb =>
    obtain ⟨-, e, he, ha, -⟩ := h.placed.lines n t hb
    exact rest _ (h.endEntry .aborted (h.not_holds_of_bound hb)) (State.bound_endEntry .aborted he ha hb)
  · next hb => exact rest s h hb

theorem State.PlacesOk.tickLine (n : LineNo) : (s.tickLine n).PlacesOk := by
  rcases s.tickLine_cases n with ⟨-, hu⟩ | ⟨-, -, hu⟩ | ⟨-, -, hu⟩ <;> rw [hu]
  · exact h
  · exact h.abortLine _
  · exact h.congr (.setLine rfl)

theorem State.PlacesOk.takeLateTick (n : LineNo) : (s.takeLateTick n).PlacesOk := by
  unfold State.takeLateTick
  split
  · exact (h.congr (.setLine (l := { s.line n with tickDue := false }) rfl)).tickLine n
  · exact h

/-- R60, R61 -/
theorem State.PlacesOk.byteArrives (b : Byte) : (s.byteArrives n b).PlacesOk := by
  unfold State.byteArrives
  split
  · exact h
  · split
    · exact h.congr (.setLine rfl)
    · exact (h.congr (.setLine (l := { s.line n with overflow := true }) rfl)).abortLine _

/-- R64 -/
theorem State.PlacesOk.examineIdle : (s.examineIdle n).PlacesOk := by
  unfold State.examineIdle
  split
  · next b _ hst _ =>
    split
    · exact h
    · have old : (s.line n).bound = none := h.bound_none (by rw [hst]; decide) (by rw [hst]; decide)
      refine h.setLine_unbound old ?_ fun hl => by rw [hst] at hl; cases hl
      unfold Line.takeIdle
      split <;> exact old
  · exact h

/-- R65, R67, R79 -/
theorem State.PlacesOk.takeHeaderByte : (s.takeHeaderByte n).PlacesOk := by
  unfold State.takeHeaderByte
  split
  · next b _ hst _ =>
    have old : (s.line n).bound = none := h.bound_none (by rw [hst]; decide) (by rw [hst]; decide)
    have out : ∀ {st : LineState}, (s.line n).state = .lookup → st = .lookup :=
      fun hl => by rw [hst] at hl; cases hl
    dsimp only
    rw [State.line_setLine]
    split
    · unfold State.handIn
      rw [State.line_setLine]
      dsimp only
      split
      · rw [State.setLine_setLine]
        exact h.setLine_unbound old old out
      · rw [State.setLine_setLine]
        refine State.placesOk_iff.2 (State.PlacedBut.askLine
          ((h.setLine_unbound old (l := { (s.line n).takeHeader b (s.threshold n) with state := .lookup })
            old out).but ∅) (by rw [State.line_setLine]) _ ?_)
        by_contra hr
        have hl := h.waiters.lineRequest n (by simpa using hr)
        rw [hst] at hl; cases hl
    · exact h.setLine_unbound old old out
  · exact h

omit h in
theorem State.SamePlaces.writeText {u t : State} {bs : List Nat} {k : Nat} {b : Byte}
    (hw : u.writeText bs k b = some t) : u.SamePlaces t := by
  obtain ⟨block, -, -, rfl⟩ := State.writeText_eq_some.1 hw
  exact .of_eq rfl rfl

omit h in
theorem State.SamePlaces.writeTexts {u t : State} {bs : List Nat} {k : Nat} {cs : List Byte}
    (hw : u.writeTexts bs k cs = some t) : u.SamePlaces t := by
  induction cs generalizing u k with
  | nil => cases hw; exact .refl _
  | cons c rest ih =>
    simp only [State.writeTexts] at hw
    split at hw
    · cases hw
    · next h1 => exact (State.SamePlaces.writeText h1).trans (ih hw)

/-- R68 -/
theorem State.PlacesOk.takeTextByte {t : State} (ht : s.takeTextByte n = .next t) : t.PlacesOk := by
  unfold State.takeTextByte at ht
  split at ht
  · next b _ tag hst _ hb =>
    split at ht
    · cases ht; exact h
    · split at ht
      · cases ht
      · next s1 h1 =>
        cases ht
        obtain ⟨block, -, -, rfl⟩ := State.writeText_eq_some.1 h1
        refine (h.congr (u := { s with text := _ }) (.of_eq (by rfl) (by rfl))).setLine rfl
          (fun _ => (s.line n).takeText_state _ _) fun hl => ?_
        have hl' : (s.line n).state = .lookup := hl
        rw [hst] at hl'; cases hl'
  · cases ht; exact h

/-- R69: the check byte completes the line's entry, or ends it. -/
theorem State.PlacesOk.takeCheckByte : (s.takeCheckByte n).PlacesOk := by
  unfold State.takeCheckByte
  split
  · next b _ t hst _ hb =>
    obtain ⟨-, e, he, ha, hsrc⟩ := h.placed.lines n t hb
    have holds : s.sourceHolds t e := by rw [State.sourceHolds, hsrc]; exact hb
    have notLookup : ∀ {u : State}, (u.line n).state = (s.line n).state → (u.line n).state = .lookup →
        LineState.idle = .lookup := fun hu hl => by rw [hu, hst] at hl; cases hl
    rw [he]
    dsimp only
    split
    · have done : (s.completeEntry t).PlacesOk := State.placesOk_iff.2 <|
        (h.but _).completeEntry he ha (h.wheel_none he ha) (h.not_holds_of_bound hb) (h.not_asked he ha holds)
      have line : (s.completeEntry t).line n = (s.line n).unbind t := s.line_unbindLines t n
      refine done.setLine_unbound ?_ rfl (notLookup (by rw [line, Line.unbind_state]))
      rw [line, Line.unbind, if_pos hb]
    · have ended := h.endEntry .aborted (h.not_holds_of_bound hb)
      refine ended.setLine_unbound (State.bound_endEntry .aborted he ha hb) rfl (notLookup ?_)
      obtain ⟨x, hx⟩ := s.line_endEntry .aborted t n
      rw [hx]
  · exact h

/-- R70 -/
theorem State.PlacesOk.takeSkipByte : (s.takeSkipByte n).PlacesOk := by
  unfold State.takeSkipByte
  split
  · next hst _ =>
    have old : (s.line n).bound = none := h.bound_none (by rw [hst]; decide) (by rw [hst]; decide)
    exact h.setLine_unbound old old fun hl => by rw [hst] at hl; cases hl
  · exact h

end

/-! ### The frame of SUBMIT PAGE -/

section
variable {s : State} (h : s.PlacesOk)
include h

/-- R98: a SUBMIT PAGE frame whose bytes have all arrived is answered where its outcome is known. -/
theorem State.PlacesOk.finishSubmit : s.finishSubmit.PlacesOk := by
  unfold State.finishSubmit
  cases hf : s.port.frame with
  | none => exact h
  | some f =>
    dsimp only
    split
    · cases ho : f.outcome with
      | admitted t serial =>
        obtain ⟨e, he, ha, hsrc⟩ := h.placed.frame f t serial hf ho
        have holds : s.sourceHolds t e := by rw [State.sourceHolds, hsrc]; exact ⟨f, serial, hf, ho⟩
        have closed : (s.setFrame none).PlacedBut (insert t ∅) := by
          refine (h.but _).closeAnswered ?_ fun g hg => by
            rw [hf] at hg; cases hg; rw [ho]; exact SubmitOutcome.noConfusion
          rintro t' ⟨g, v', hg, ho'⟩
          rw [hf] at hg; cases hg
          rw [ho] at ho'; cases ho'
          exact Set.mem_insert ..
        have done := closed.completeEntry he ha (h.wheel_none he ha) (Port.not_holds_of_no_frame rfl t)
          (h.not_asked he ha holds)
        exact (State.placesOk_iff.2 done).congr (.of_eq rfl rfl)
      | refused reason peer =>
        have closed : (s.setFrame none).PlacesOk := by
          refine State.placesOk_iff.2 ((h.but ∅).closeAnswered ?_ fun g hg => by
            rw [hf] at hg; cases hg; rw [ho]; exact SubmitOutcome.noConfusion)
          rintro t ⟨g, v, hg, ho'⟩
          rw [hf] at hg; cases hg
          rw [ho] at ho'; cases ho'
        exact closed.congr (.of_eq rfl rfl)
      | none | outstanding => exact h
    · exact h

/-- R161: a frame whose command has no request goes. -/
theorem State.PlacesOk.closePlain {f : Frame} (hf : s.port.frame = some f) (ho : f.outcome = .none) :
    (s.setFrame none).PlacesOk := by
  refine State.placesOk_iff.2 ((h.but ∅).closeAnswered ?_ fun g hg => ?_)
  · rintro t ⟨g, v, hg, hv⟩
    rw [hf] at hg; cases hg
    rw [ho] at hv; cases hv
  · rw [hf] at hg; cases hg
    rw [ho]; exact SubmitOutcome.noConfusion

/-- R97: the fifth header byte hands in the request of a frame that has none. -/
theorem State.PlacesOk.handInPort {g f : Frame} (hg : s.port.frame = some g) (ho : g.outcome = .none)
    (hc : f.cmd = .submitPage) (hlen : 5 ≤ f.args.length) (hm : f.misq = false) : (s.handInPort f).PlacesOk := by
  have quiet : ¬ s.clears := fun hq => by
    have hn := h.waiters.quiet hq
    rw [hg] at hn; cases hn
  have closed := (h.closePlain hg ho).but ∅
  unfold State.handInPort
  dsimp only
  split
  · exact State.placesOk_iff.2 (closed.openFrame (g := { f with outcome := .refused _ _ }) rfl quiet
      (fun _ => ⟨hc, hlen, hm⟩) SubmitOutcome.noConfusion fun t v hv => by cases hv)
  · exact State.placesOk_iff.2 (closed.openOutstanding (g := { f with outcome := .outstanding }) rfl quiet
      ⟨hc, hlen, hm⟩ rfl _)

/-- R97, R98, R165: a byte of a SUBMIT PAGE frame. -/
theorem State.PlacesOk.submitByte {t : State} {g : Frame} {b : Byte} (hg : s.port.frame = some g)
    (hc : g.cmd = .submitPage) (ht : s.submitByte { g with args := g.args ++ [b] } b = .next t) :
    t.PlacesOk := by
  have len : (g.args ++ [b]).length = g.args.length + 1 := by simp
  have form : g.outcome ≠ .none → g.cmd = .submitPage ∧ 5 ≤ (g.args ++ [b]).length ∧ g.misq = false :=
    fun hn => by
      obtain ⟨h1, h2, h3⟩ := h.waiters.frames g hg hn
      exact ⟨h1, by omega, h3⟩
  have kept : (s.setFrame (some { g with args := g.args ++ [b] })).PlacesOk :=
    State.placesOk_iff.2 ((h.but ∅).keepFrame (g := { g with args := g.args ++ [b] }) hg rfl form)
  have plain : g.misq = true ∨ g.args.length < 5 → g.outcome = .none := fun hor => by
    by_contra hn
    obtain ⟨-, h2, h3⟩ := h.waiters.frames g hg hn
    rcases hor with hor | hor
    · rw [h3] at hor; cases hor
    · omega
  unfold State.submitByte at ht
  split at ht
  · next hm =>
    cases ht
    split
    · exact (h.closePlain hg (plain (.inl hm))).congr (.of_eq rfl rfl)
    · exact kept
  · next hm =>
    split at ht
    · cases ht; exact kept
    · split at ht
      · next hlen =>
        cases ht
        have short : g.args.length < 5 := by
          have hlen' : (g.args ++ [b]).length = 5 := hlen
          omega
        exact (h.handInPort (f := { g with args := g.args ++ [b] }) hg (plain (.inr short)) hc hlen.ge
          (by simpa using hm)).finishSubmit
      · split at ht
        · cases ht
        · next s1 h1 =>
          cases ht
          refine State.PlacesOk.finishSubmit ?_
          unfold State.submitText at h1
          split at h1
          · split at h1
            · exact kept.congr (State.SamePlaces.writeText h1)
            · cases h1; exact kept
          all_goals cases h1; exact kept

end

/-! ### ADMISSION -/

/-- R82: the slot allocated is free, so that its new tag stands nowhere yet. -/
theorem State.PlacedBut.allocate {s : State} {X : Set Tag} (h : s.PlacedBut X) {i : Nat} (hi : i < 256)
    (free : (s.slot i).entry = none) (e : Entry) :
    (s.allocate i e).PlacedBut (insert (s.nextTag i) X) ∧ (s.allocate i e).Unplaced (s.nextTag i) ∧
      (s.allocate i e).entry (s.nextTag i) = some e := by
  have dead : s.entry (s.nextTag i) = none := State.entry_eq_none.2 (.inr free)
  have unplaced := h.unplaced_of_dead dead
  refine ⟨(h.loose (s.nextTag i)).rewrite (Set.mem_insert ..) unplaced
    (fun t' hne => State.entry_setSlot_ne _ hne (.inr free) rfl) fun j hj => ?_, { unplaced with }, ?_⟩
  · have hf : ((s.allocate i e).slot j).entry = (s.slot j).entry := by
      rw [State.allocate, State.slot_setSlot_ne s _ (by omega)]
    exact hf.trans (h.slots j hj)
  · rw [State.entry_eq_some]
    have hs : (s.allocate i e).slot i = { s.slot i with gen := ((s.slot i).gen + 1) % 256, entry := some e } :=
      State.slot_setSlot ..
    exact ⟨by rw [State.nextTag, hs], by rw [State.nextTag, hs]⟩

/-- R82: as far as the places go, an admission is the allocation of its slot. -/
theorem State.SamePlaces.admitPage (s : State) (i : Nat) (src : Source) (hdr : Header) (r : Subscriber)
    (serial : Nat) :
    (s.allocate i (s.newEntry src hdr r serial)).SamePlaces (s.admitPage i src hdr r serial) := by
  have slots := s.admitPage_slots i src hdr r serial
  refine .of_eq ?_ (State.admitPage_op ..)
  have outside := congrArg State.places (s.admitPage_outside i src hdr r serial)
  exact (congrArg (fun v : State => { v with slots := (s.admitPage i src hdr r serial).slots }) outside).trans
    (by rw [slots])

/-- R7, R79, R82: the answer of the oldest request. -/
theorem admission_keepsPlaces {s t : State} (h : s.PlacesOk) (ht : execAdmission s = .next t) : t.PlacesOk := by
  unfold execAdmission at ht
  split at ht
  · next src hdr ha =>
    obtain ⟨idle, -, held, rest, hl⟩ := State.answerable_eq_some.1 ha
    have quiet : ¬ s.clears := by simp [State.clears, idle]
    have asks : s.lookups.any (fun l => isRequestOf src l.user) = true := by
      rw [hl, List.any_cons]; simp [isRequestOf]
    have pop : s.popLookup = s.dropLookup (isRequestOf src) :=
      State.popLookup_eq_dropLookup hl (by simp [isRequestOf]) (h.waiters.requestOnce src)
    cases src with
    | line n =>
      have hst := h.waiters.lineRequest n asks
      have popped : s.popLookup.PlacesOk := by
        rw [pop]; exact State.placesOk_iff.2 ((h.but ∅).dropLineRequest n)
      have gone : s.popLookup.lookups.any (fun l => isRequestOf (.line n) l.user) = false := by
        rw [pop]; exact State.requests_dropRequest_self s _
      have old : (s.line n).bound = none := h.bound_none (by rw [hst]; decide) (by rw [hst]; decide)
      unfold State.answerRequest at ht
      split at ht
      · cases ht
        exact State.placesOk_iff.2 ((popped.but ∅).setLine
          (fun t hb => by
            have hb' : (s.line n).bound = some t := hb
            rw [old] at hb'; cases hb')
          (fun t hb => .inl hb) (fun hr => by rw [gone] at hr; cases hr))
      · next i r serial hv =>
        obtain ⟨-, -, hfree, -⟩ := State.verdict_admitted hv
        obtain ⟨hi, free⟩ := State.freeIndex_eq_some hfree
        obtain ⟨placed, unplaced, live⟩ := (popped.but ∅).allocate hi free
          (s.popLookup.newEntry (.line n) hdr r serial)
        have same := State.SamePlaces.admitPage s.popLookup i (.line n) hdr r serial
        have oldBound : ((s.popLookup.admitPage i (.line n) hdr r serial).line n).bound = none :=
          (same.lineBound n).trans old
        have live' := (same.entry _).trans live
        unfold State.bindSource at ht
        cases ht
        refine State.placesOk_iff.2 (State.PlacedBut.settle (t := s.popLookup.nextTag i)
          ((placed.congr same).setLine (fun t hb => ?_) (fun t hb => ?_) fun hr => ?_) fun x hx => ?_)
        · have hb' : some (s.popLookup.nextTag i) = some t := hb
          cases hb'
          exact ⟨Line.admittedLine_state .., .inr ⟨Set.mem_insert .., _, live', rfl, rfl⟩⟩
        · rw [oldBound] at hb; cases hb
        · rw [same.any (p := isRequestOf (.line n)) fun _ => rfl] at hr
          exact absurd (hr.symm.trans gone) (by decide)
        · have hx' := live'.symm.trans hx
          cases hx'
          exact {
            assembling := fun _ => by
              refine iff_of_true ?_ ((same.launchAsked _).trans unplaced.asked)
              change ((State.setLine _ n _).line n).bound = _
              rw [State.line_setLine]; rfl
            wheel := fun ho => by cases ho
            offWheel := fun _ => rfl
            queued := fun hq => by cases hq
            onAir := fun ho => by cases ho }
    | port =>
      obtain ⟨f, hf, ho⟩ := h.waiters.portRequest.1 asks
      obtain ⟨hc, hlen, hm⟩ := h.waiters.frames f hf (by rw [ho]; exact SubmitOutcome.noConfusion)
      have closed : (s.popLookup.setFrame none).PlacesOk := by
        rw [pop]
        refine State.placesOk_iff.2 ((h.but ∅).closeFrame ?_)
        rintro t ⟨g, v, hg, hv⟩
        rw [hf] at hg; cases hg
        rw [ho] at hv; cases hv
      have hf' : s.popLookup.port.frame = some f := hf
      unfold State.answerRequest at ht
      split at ht
      · cases ht
        simp only [State.refuseSource, hf']
        refine State.PlacesOk.finishSubmit (State.placesOk_iff.2 ?_)
        exact (closed.but ∅).openFrame (g := { f with outcome := .refused _ 0 }) rfl quiet
          (fun _ => ⟨hc, hlen, hm⟩) SubmitOutcome.noConfusion fun t v hv => by cases hv
      · next i r serial hv =>
        obtain ⟨-, -, hfree, -⟩ := State.verdict_admitted hv
        obtain ⟨hi, free⟩ := State.freeIndex_eq_some hfree
        obtain ⟨g, hgdef⟩ : ∃ g, g = { f with outcome := .admitted (s.popLookup.nextTag i) serial } := ⟨_, rfl⟩
        have outcome : g.outcome = .admitted (s.popLookup.nextTag i) serial := by rw [hgdef]
        obtain ⟨placed, unplaced, live⟩ := (closed.but ∅).allocate hi free
          (s.popLookup.newEntry .port hdr r serial)
        have opened := placed.openFrame (g := g) rfl quiet (fun _ => by rw [hgdef]; exact ⟨hc, hlen, hm⟩)
          (by rw [outcome]; exact SubmitOutcome.noConfusion)
          (fun t v hv => by
            rw [outcome] at hv; cases hv
            exact ⟨Set.mem_insert .., _, live, rfl, rfl⟩)
        have bound := State.PlacedBut.settle (t := s.popLookup.nextTag i) opened fun x hx => by
          have hx' := live.symm.trans hx
          cases hx'
          exact {
            assembling := fun _ => iff_of_true ⟨g, serial, rfl, outcome⟩ unplaced.asked
            wheel := fun ho => by cases ho
            offWheel := fun _ => rfl
            queued := fun hq => by cases hq
            onAir := fun ho => by cases ho }
        have same := (State.SamePlaces.admitPage s.popLookup i .port hdr r serial).setFrame (some g)
        have frame : (s.popLookup.admitPage i .port hdr r serial).port.frame = some f :=
          (State.SamePlaces.admitPage s.popLookup i .port hdr r serial).frame.trans hf'
        simp only [State.bindSource, frame] at ht
        split at ht
        · cases ht
        · next s1 h1 =>
          cases ht
          refine State.PlacesOk.finishSubmit (State.PlacesOk.congr ?_ (State.SamePlaces.writeTexts h1))
          rw [State.setOutcome, ← hgdef]
          exact (State.placesOk_iff.2 bound).congr same
  · cases ht; exact h

end Sys2Proof.Machine
end

/-! ## The rows of the clock, the wheel, the channels and the Answer-Back Unit keep the places (R102 to R142) -/

section

namespace Sys2Proof.Machine

/-! ### The clock and the visits -/

theorem State.PlacesOk.foldl {α : Type} {f : State → α → State}
    (hf : ∀ (u : State) x, u.PlacesOk → (f u x).PlacesOk) (xs : List α) {s : State} (h : s.PlacesOk) :
    (xs.foldl f s).PlacesOk := by
  induction xs generalizing s with
  | nil => exact h
  | cons x rest ih => exact ih (hf s x h)

theorem State.SamePlaces.sample (s : State) (c : Chan) : s.SamePlaces (s.sample c) := by
  rw [State.sample_frame]; exact .of_eq rfl rfl

theorem State.SamePlaces.takeLateSample (s : State) (c : Chan) : s.SamePlaces (s.takeLateSample c) := by
  unfold State.takeLateSample
  split
  · exact .trans (.of_eq (by rfl) (by rfl)) (.sample (s.setSampleDue c false) c)
  · exact .refl s

/-- R107: a visit past its next tag is of the same slot, with no tag more. -/
theorem mem_visitsPast {vs : List Visit} {w : Nat} {v : Visit} (hv : v ∈ visitsPast vs w) :
    ∃ v₀ ∈ vs, v.slot = v₀.slot ∧ v.todo.Sublist v₀.todo := by
  induction vs with
  | nil => cases hv
  | cons x rest ih =>
    unfold visitsPast at hv
    split at hv
    · split at hv
      · exact ⟨v, List.mem_cons_of_mem x hv, rfl, .refl _⟩
      · rcases List.mem_cons.1 hv with rfl | hv
        · exact ⟨x, List.mem_cons_self, rfl, List.tail_sublist _⟩
        · exact ⟨v, List.mem_cons_of_mem x hv, rfl, .refl _⟩
    · rcases List.mem_cons.1 hv with rfl | hv
      · exact ⟨v, List.mem_cons_self, rfl, .refl _⟩
      · obtain ⟨v₀, h₀, hr⟩ := ih hv
        exact ⟨v₀, List.mem_cons_of_mem x h₀, hr⟩

/-- R107: the tag that a visit takes next is one of its tags. -/
theorem State.visited_mem {s : State} {w : Nat} {t : Tag} (ht : s.visited w = some t) :
    ∃ v ∈ s.visits, t ∈ v.todo := by
  unfold State.visited at ht
  split at ht
  · next v hv => exact ⟨v, List.mem_of_find?_eq_some hv, List.mem_of_mem_head? ht⟩
  · cases ht

section
variable {s : State} (h : s.PlacesOk)
include h

theorem State.PlacesOk.advanceClock : s.advanceClock.PlacesOk :=
  { placed := { h.placed with }
    waiters := { h.waiters with
      visits := fun v hv => by
        have hv' : v ∈ if (s.wheelList ((s.head + 1) % 64)).isEmpty then s.visits
            else s.visits ++ [{ slot := (s.head + 1) % 64, todo := s.wheelList ((s.head + 1) % 64) }] := hv
        split at hv'
        · exact h.waiters.visits v hv'
        · rcases List.mem_append.1 hv' with hv' | hv'
          · exact h.waiters.visits v hv'
          · rw [List.mem_singleton.1 hv']
            exact ⟨(h.placed.wheelLists _).1, fun _ hx => hx⟩ } }

theorem State.PlacesOk.tickReaches (late : List TickPart) (p : TickPart) : (s.tickReaches late p).PlacesOk := by
  cases p with
  | line n =>
    unfold State.tickReaches
    dsimp only
    split
    · exact h.congr (.setLine (l := { s.line n with tickDue := true }) rfl)
    · exact h.tickLine n
  | channel c =>
    unfold State.tickReaches
    dsimp only
    split
    · exact h.congr (.of_eq rfl rfl)
    · exact h.congr (.sample s c)

/-- R71, R102, R107, R148 -/
theorem State.PlacesOk.countTick : s.countTick.PlacesOk := by
  have ticked := (((h.takeLateTick 0).takeLateTick 1).takeLateTick 2).takeLateTick 3
  have late : s.takeLate.PlacesOk := (ticked.congr (.takeLateSample _ .A)).congr (.takeLateSample _ .B)
  exact State.PlacesOk.foldl (fun _ p hu => hu.tickReaches _ p) _ late.advanceClock

theorem State.PlacesOk.passVisit (w : Nat) : (s.passVisit w).PlacesOk :=
  { placed := { h.placed with }
    waiters := { h.waiters with
      visits := fun v hv => by
        obtain ⟨v₀, h₀, hs, hsub⟩ := mem_visitsPast hv
        obtain ⟨hnd, hall⟩ := h.waiters.visits v₀ h₀
        exact ⟨hsub.nodup hnd, fun t ht => by rw [hs]; exact hall t (hsub.subset ht)⟩ } }

/-- R107: a visit examines entries that stand on the wheel. -/
theorem State.PlacesOk.visited_onWheel {w : Nat} {t : Tag} {e : Entry} (ht : s.visited w = some t)
    (he : s.entry t = some e) : e.state.onWheel = true := by
  obtain ⟨v, hv, hm⟩ := State.visited_mem ht
  exact ((h.but ∅).wheel_of_mem he ((h.waiters.visits v hv).2 t hm)).1

theorem State.PlacesOk.not_holds {t : Tag} {e : Entry} (he : s.entry t = some e)
    (hst : e.state ≠ .assembling) : ¬ s.port.holds t := (h.but ∅).not_holds he hst

omit h in
theorem PageState.ne_assembling_of_onWheel {st : PageState} (h : st.onWheel = true) : st ≠ .assembling := by
  rintro rfl; cases h

/-- R108: the launch of an entry on the wheel is asked for. -/
theorem State.PlacesOk.askLaunch {t : Tag} {e : Entry} (he : s.entry t = some e)
    (ho : e.state.onWheel = true) (hn : s.launchAsked t = false) : (s.askLaunch t).PlacesOk :=
  State.placesOk_iff.2 ((h.but ∅).askLaunch he (.inr ho) hn)

/-- R108 -/
theorem State.PlacesOk.wheelVisit (w : Nat) : (s.wheelVisit w).PlacesOk := by
  have pass := h.passVisit w
  unfold State.wheelVisit
  split
  · exact h
  · next t ht =>
    split
    · exact pass
    · next e he =>
      split
      · exact h
      · split
        · refine State.placesOk_iff.2 ((pass.but ∅).setEntry_same (e := e) (e' := e.fallRound) he rfl rfl rfl
            rfl ?_)
          rw [Entry.fallRound, Option.map_map]; rfl
        · split
          · exact pass
          · next hn =>
            exact pass.askLaunch (e := e) he (h.visited_onWheel ht he)
              (show s.launchAsked t = false by simpa using hn)

theorem State.PlacesOk.endVisited {w : Nat} {t : Tag} {e : Entry} (k : Ending) (ht : s.visited w = some t)
    (he : s.entry t = some e) : ((s.passVisit w).endEntry k t).PlacesOk :=
  (h.passVisit w).endEntry k <|
    h.not_holds he (PageState.ne_assembling_of_onWheel (h.visited_onWheel ht he))

/-- R108, step 1 -/
theorem State.PlacesOk.expireVisited (w : Nat) : (s.expireVisited w).PlacesOk := by
  unfold State.expireVisited
  split
  · exact h
  · next t ht =>
    split
    · exact h
    · next e he =>
      split
      · exact h.endVisited .expired ht he
      · exact h

/-- R108, step 3, R116 -/
theorem State.PlacesOk.endWindow (w : Nat) : (s.endWindow w).PlacesOk := by
  unfold State.endWindow
  split
  · exact h
  · next t ht =>
    split
    · exact h
    · next e he =>
      split
      · next hw =>
        split
        · exact h.endVisited .expired ht he
        · refine (h.passVisit w).askLaunch (e := e) he (h.visited_onWheel ht he) ?_
          simp only [State.windowEnded, Bool.and_eq_true, Bool.not_eq_true'] at hw
          exact hw.1.2
      · exact h

/-! ### Launches -/

/-- R110: the entry of a launch has no source that holds it. -/
theorem State.PlacesOk.not_held_of_asked {t : Tag} {e : Entry} (he : s.entry t = some e)
    (ha : s.launchAsked t = true) : (∀ n, (s.line n).bound ≠ some t) ∧ ¬ s.port.holds t := by
  have free : e.state = .assembling → ¬ s.sourceHolds t e := fun hst hs => by
    rw [h.not_asked he hst hs] at ha; cases ha
  constructor
  · intro n hb
    obtain ⟨hst, hsrc⟩ := (h.but ∅).source_of_bound he hb
    exact free hst (by rw [State.sourceHolds, hsrc]; exact hb)
  · intro hh
    obtain ⟨hst, hsrc⟩ := (h.but ∅).source_of_holds he hh
    exact free hst (by rw [State.sourceHolds, hsrc]; exact hh)

/-- R7, R110: the launch of the oldest lookup finds its entry and its record. -/
theorem State.PlacesOk.launch {t : Tag} (live : s.LiveOk) (ha : s.answerable = some (.launch t)) :
    (s.popLookup.launch t).PlacesOk := by
  obtain ⟨-, -, held, rest, hl⟩ := State.answerable_eq_some.1 ha
  have asked : s.launchAsked t = true := by rw [State.launchAsked, hl, List.any_cons]; simp [isLaunchOf]
  have pop : s.popLookup = s.dropLookup (isLaunchOf t) :=
    State.popLookup_eq_dropLookup hl (by simp [isLaunchOf]) (h.waiters.launchOnce t)
  obtain ⟨e, he, hst⟩ := h.waiters.launch t asked
  obtain ⟨hb, hh⟩ := h.not_held_of_asked he asked
  have popped : s.popLookup.PlacedBut (insert t ∅) := by
    rw [pop]; exact (h.but _).dropLaunch (Set.mem_insert ..)
  have unplaced : (s.popLookup.leaveSlot t e).Unplaced t :=
    popped.unplaced_leaveSlot he hb hh
      (fun c p hm => by
        have hq := ((h.but ∅).band_of_mem he hm).1
        rcases hst with hs | hs <;> rw [hq] at hs <;> cases hs)
      (by rw [pop]; exact State.launchAsked_dropLaunch_self s t)
  obtain ⟨r, hr⟩ : ∃ r, s.record e.addr = some r := by
    obtain ⟨i, hi⟩ := State.entry_eq_some.1 he
    obtain ⟨r, hr, ha⟩ := live.bears e (State.mem_liveEntries.2 ⟨t.slot, h.placed.slots.lt_of_entry he, hi⟩)
    exact Option.isSome_iff_exists.1 (State.isSome_record.2 ⟨r, hr, ha⟩)
  have he' : s.popLookup.entry t = some e := he
  have hr' : s.popLookup.record e.addr = some r := hr
  refine State.placesOk_iff.2 ?_
  unfold State.launch
  rw [he']
  dsimp only
  rw [hr']
  dsimp only
  split
  · exact popped.schedule he' _ rfl _ unplaced
  · exact popped.placeLaunch he' unplaced _

end

/-! ### Channels -/

/-- An ending leaves the other live entries and adds none. -/
theorem State.entry_of_endEntry {s : State} {k : Ending} {t t' : Tag} {e : Entry}
    (h : (s.endEntry k t).entry t' = some e) : s.entry t' = some e := by
  cases he : s.entry t with
  | none => rwa [State.endEntry_of_none k he] at h
  | some x =>
    rw [State.entry_eq_some] at h ⊢
    by_cases hs : t'.slot = t.slot
    · rw [hs, State.slot_endEntry k he] at h; cases h.2
    · rwa [State.slot_endEntry_ne k he hs] at h

theorem State.entry_endEntry_self (s : State) (k : Ending) (t : Tag) : (s.endEntry k t).entry t = none := by
  cases he : s.entry t with
  | none => rw [State.endEntry_of_none k he]; exact he
  | some x => exact State.entry_eq_none.2 (.inr (by rw [State.slot_endEntry k he]))

section
variable {s : State} (h : s.PlacesOk)
include h

/-- R127: pending marks leave the entries in their places. -/
theorem State.PlacesOk.markOutstanding (c : Chan) : (s.markOutstanding c).PlacesOk := by
  refine State.PlacesOk.foldl (fun u t hu => ?_) _ h
  unfold State.markExpired
  split
  · next e he =>
    split
    · exact State.placesOk_iff.2 ((hu.but ∅).setEntry_same (e' := { e with expirePending := true }) he rfl rfl
        rfl rfl rfl)
    · exact hu
  · exact hu

omit h in
/-- R125: the examined entries past their deadlines end, and none of them is still with its source. -/
theorem State.PlacesOk.expireQueued (c : Chan) (ts : List Tag) {u : State} (hu : u.PlacesOk)
    (queued : ∀ t ∈ ts, ∀ e, u.entry t = some e → e.state = .queued) :
    (ts.foldl (State.expireQueued c) u).PlacesOk := by
  induction ts generalizing u with
  | nil => exact hu
  | cons t rest ih =>
    have unheld : ¬ u.port.holds t := by
      rintro ⟨f, v, hf, ho⟩
      obtain ⟨e, he, ha, -⟩ := hu.placed.frame f t v hf ho
      have hq := queued t List.mem_cons_self e he
      rw [ha] at hq; cases hq
    have ended := hu.endEntry .expired unheld
    have left : (u.expireQueued c t).PlacesOk := State.placesOk_iff.2 <|
      ((ended.but _).leaveBand (Set.mem_insert t ∅) c).settle fun e he => by
        have gone : (u.endEntry .expired t).entry t = some e := he
        rw [State.entry_endEntry_self] at gone; cases gone
    exact ih left fun t' ht' e he =>
      queued t' (List.mem_cons_of_mem t ht') e (State.entry_of_endEntry he)

theorem State.PlacesOk.queue_entry {c : Chan} {t : Tag} (ht : t ∈ (s.chan c).queue) :
    ∃ e, s.entry t = some e ∧ e.state = .queued ∧ e.chan = c := by
  rcases List.mem_append.1 ht with ht | ht
  · obtain ⟨e, he, hq, hc, -⟩ := (h.placed.bands c .urgent).2 t ht
    exact ⟨e, he, hq, hc⟩
  · obtain ⟨e, he, hq, hc, -⟩ := (h.placed.bands c .normal).2 t ht
    exact ⟨e, he, hq, hc⟩

theorem State.PlacesOk.expireHeads (c : Chan) : (s.expireHeads c).PlacesOk :=
  h.expireQueued c _ fun t ht e he => by
    obtain ⟨x, hx, hq, -⟩ := h.queue_entry ((List.takeWhile_sublist _).subset ht)
    rw [he] at hx; cases hx
    exact hq

omit h in
/-- R122: a channel's state and its counters are no places. -/
theorem State.SamePlaces.setChan {c : Chan} {v : Channel} (place : v.place = (s.chan c).place) :
    s.SamePlaces (s.setChan c v) := by
  refine .of_eq ?_ rfl
  cases c <;> simp only [State.places, State.setChan, Duo.put, place] <;> rfl

theorem State.PlacesOk.answerEmpty (c : Chan) : (s.answerEmpty c).PlacesOk := by
  unfold State.answerEmpty
  split
  · exact (h.congr (State.SamePlaces.setChan
      (v := { s.chan c with state := .closed, drained := true }) rfl)).congr (.of_eq rfl rfl)
  · exact h.congr (.of_eq rfl rfl)
  · exact h.congr (.of_eq rfl rfl)

/-- R125: the entry served leaves its band for the outstanding list. -/
theorem State.PlacesOk.putOnAir {c : Chan} {t : Tag} {e : Entry} (he : s.entry t = some e)
    (hq : e.state = .queued) (hc : e.chan = c) : (s.putOnAir c t e).PlacesOk := by
  have ht : t ∈ insert t (∅ : Set Tag) := Set.mem_insert t ∅
  have hp := (h.but ∅).placed t e he (Set.notMem_empty t)
  have hw : e.wheel = none := hp.offWheel (by rw [hq]; rfl)
  have unplaced : (s.leaveBand t c).Unplaced t := {
    bound := (h.but ∅).not_bound he (by rw [hq]; decide)
    held := h.not_holds he (by rw [hq]; decide)
    wheel := fun w hm => by
      have ho := ((h.but ∅).wheel_of_mem he hm).1
      rw [hq] at ho; cases ho
    bands := fun k p hm => by
      rw [State.band_leaveBand] at hm
      split at hm
      · exact (h.placed.bands c p).1.not_mem_erase hm
      · next hk => exact hk ((((h.but ∅).band_of_mem he hm).2.1).symm.trans hc)
    asked := by
      by_contra ha
      have ha' : s.launchAsked t = true := by simpa [State.launchAsked] using ha
      rcases (h.but ∅).state_of_asked he ha' with hs | hs <;> rw [hq] at hs <;> cases hs }
  have listed := ((h.but _).leaveBand ht c).setOutstanding c
    (ts := ((s.leaveBand t c).chan c).outstanding ++ [t]) fun _ _ _ _ _ _ hm => List.mem_append_left _ hm
  have rewritten := listed.setEntry (e := e) ht ?_ he { e with state := .onAir }
  · refine State.placesOk_iff.2 (rewritten.settle fun x hx => ?_)
    have hx' : some { e with state := .onAir } = some x :=
      (State.entry_setEntry (s := (s.leaveBand t c).setChan c _) he _).symm.trans hx
    cases hx'
    exact {
      assembling := fun ha => by cases ha
      wheel := fun ho => by cases ho
      offWheel := fun _ => hw
      queued := fun hq => by cases hq
      onAir := fun _ => by
        change t ∈ ((State.setChan _ c _).chan e.chan).outstanding
        rw [hc, State.chan_setChan]
        exact List.mem_append_right _ (List.mem_singleton.2 rfl) }
  · exact { unplaced with
      bands := fun k p => by
        by_cases hk : k = c
        · subst hk
          rw [State.chan_setChan]
          have hm := unplaced.bands k p
          cases p <;> exact hm
        · rw [State.chan_setChan_ne _ _ hk]; exact unplaced.bands k p }

/-- R125 -/
theorem State.PlacesOk.pullQueue {c : Chan} {t : State} (ht : s.pullQueue c = .next t) : t.PlacesOk := by
  have heads := h.expireHeads c
  unfold State.pullQueue at ht
  dsimp only at ht
  split at ht
  · cases ht; exact heads.answerEmpty c
  · next tag _ hq =>
    split at ht
    · next e he =>
      unfold State.servePage at ht
      split at ht
      · cases ht
      · cases ht
        obtain ⟨x, hx, hst, hc⟩ := heads.queue_entry (t := tag) (by rw [hq]; exact List.mem_cons_self)
        rw [he] at hx; cases hx
        exact (heads.putOnAir he hst hc).congr (.of_eq rfl rfl)
    · cases ht; exact heads

theorem State.PlacesOk.pull {c : Chan} {sending : Bool} {t : State} (ht : execPull c sending s = .next t) :
    t.PlacesOk := by
  unfold execPull at ht
  split at ht
  · cases ht; exact h
  · split at ht
    · cases ht; exact h.congr (.of_eq rfl rfl)
    · have marked := h.markOutstanding c
      unfold State.answerPull at ht
      split at ht
      · cases ht; exact marked.congr (.of_eq rfl rfl)
      · split at ht
        · cases ht; exact marked.congr (.of_eq rfl rfl)
        · exact marked.pullQueue ht

omit h in
/-- R128, R129: a report reaches an ON_AIR entry of its channel. -/
theorem State.reported_eq_some {c : Chan} {t : Tag} {e : Entry} (hr : s.reported c t = some e) :
    s.entry t = some e ∧ e.state = .onAir ∧ e.chan = c := by
  unfold State.reported at hr
  split at hr
  · split at hr
    · next he =>
      split at hr
      · next hs =>
        cases hr
        simp only [Bool.and_eq_true, decide_eq_true_eq] at hs
        exact ⟨he, hs⟩
      · cases hr
    · cases hr
  · cases hr

/-- R130: a stray report takes its tag off no entry's place. -/
theorem State.PlacesOk.unlist_stray {c : Chan} {t : Tag} (hr : s.reported c t = none) :
    (s.unlist c t).PlacesOk := by
  refine State.placesOk_iff.2 ((h.but ∅).setOutstanding c fun t' e he ho hc _ hm => ?_)
  refine (List.mem_erase_of_ne ?_).2 hm
  rintro rfl
  simp [State.reported, hm, he, ho, hc] at hr

/-- R128, R129: the tag of a live report leaves the outstanding list, and its entry stands nowhere. -/
theorem State.PlacesOk.unlist_live {c : Chan} {t : Tag} {e : Entry} (hr : s.reported c t = some e) :
    (s.unlist c t).PlacedBut (insert t ∅) ∧ (s.unlist c t).Unplaced t ∧ e.wheel = none := by
  obtain ⟨he, ho, -⟩ := State.reported_eq_some hr
  have unlisted : (s.unlist c t).PlacedBut (insert t ∅) :=
    (h.but _).setOutstanding c fun t' _ _ _ _ hX hm =>
      (List.mem_erase_of_ne (ne_of_mem_of_not_mem (Set.mem_insert t ∅) hX).symm).2 hm
  exact ⟨unlisted, unlisted.unplaced_of_onAir (e := e) he ho,
    (h.placed.wheel t e he).2 (by rw [ho]; rfl)⟩

omit h in
theorem State.SamePlaces.sentEvent (i k sc : Nat) : s.SamePlaces (s.sentEvent i k sc) := by
  unfold State.sentEvent
  split
  · rw [State.commit_eq]; exact .of_eq rfl rfl
  · exact .of_eq rfl rfl

/-- R128, R130 -/
theorem State.PlacesOk.reportSent (c : Chan) (t : Tag) : (s.reportSent c t).PlacesOk := by
  unfold State.reportSent
  cases hr : s.reported c t with
  | none => exact (h.unlist_stray hr).congr (State.SamePlaces.setChan rfl)
  | some e =>
    obtain ⟨unlisted, unplaced, hw⟩ := h.unlist_live hr
    have he : (s.unlist c t).entry t = some e := (State.reported_eq_some hr).1
    obtain ⟨e₁, he₁⟩ : ∃ e₁, e₁ = { e with attempts := e.attempts + 1 } := ⟨_, rfl⟩
    have same := State.SamePlaces.sentEvent (s := (s.unlist c t).setEntry t.slot e₁) e.account (e.attempts + 1)
      ((s.unlist c t).surchargeFor e)
    have counted := (unlisted.setEntry (Set.mem_insert t ∅) unplaced he e₁).congr same
    have unplaced' : State.Unplaced _ t :=
      State.Unplaced.congr (s := (s.unlist c t).setEntry t.slot e₁) { unplaced with } same
    have live := (same.entry t).trans (State.entry_setEntry he e₁)
    have hw' : e₁.wheel = none := by rw [he₁]; exact hw
    refine State.placesOk_iff.2 ?_
    unfold State.sentLive
    dsimp only
    rw [← he₁]
    unfold State.afterSent
    split
    · exact counted.endEntry _ unplaced'.held
    · split
      · exact counted.endEntry _ unplaced'.held
      · split
        · exact counted.endEntry _ unplaced'.held
        · exact counted.schedule_offWheel live hw' (st := .listening) rfl _ unplaced'

/-- R129, R130 -/
theorem State.PlacesOk.reportFailed (c : Chan) (t : Tag) : (s.reportFailed c t).PlacesOk := by
  have raised : (s.raise .airFault).PlacesOk := h.congr (.of_eq rfl rfl)
  unfold State.reportFailed
  cases hr : s.reported c t with
  | none => exact (raised.unlist_stray hr).congr (State.SamePlaces.setChan rfl)
  | some e =>
    obtain ⟨unlisted, unplaced, hw⟩ := raised.unlist_live (t := t) (c := c) hr
    refine State.placesOk_iff.2 ?_
    dsimp only
    unfold State.failedLive
    split
    · exact unlisted.endEntry _ unplaced.held
    · split
      · exact unlisted.endEntry _ unplaced.held
      · exact unlisted.schedule_offWheel (State.reported_eq_some hr).1 hw rfl _ unplaced

omit h in
/-- R123: the tags of a queue stand in it once. -/
theorem State.PlacedBut.queue_nodup {X : Set Tag} (h : s.PlacedBut X) (c : Chan) : (s.chan c).queue.Nodup := by
  refine (h.bands c .urgent).1.append (h.bands c .normal).1 fun t hu hn => ?_
  obtain ⟨e, he, -, -, hp⟩ := (h.bands c .urgent).2 t hu
  obtain ⟨e', he', -, -, hp'⟩ := (h.bands c .normal).2 t hn
  rw [he] at he'; cases he'
  rw [hp] at hp'; cases hp'

/-- R132: the emptied bands leave their tags nowhere. -/
theorem State.PlacesOk.emptyBands (c : Chan) :
    let u := s.setChan c { s.chan c with urgent := [], normal := [] }
    u.PlacedBut {t | t ∈ (s.chan c).queue} ∧ ∀ t ∈ (s.chan c).queue, u.Unplaced t := by
  intro u
  have band : ∀ k p, (u.chan k).band p = if k = c then [] else (s.chan k).band p := fun k p => by
    split
    · next hk => subst hk; rw [State.chan_setChan]; cases p <;> rfl
    · next hk => rw [State.chan_setChan_ne s _ hk]
  refine ⟨{ h.but {t | t ∈ (s.chan c).queue} with
    placed := fun t e he ht => ?_
    bands := fun k p => ?_
    waiters := { h.waiters with } }, fun t ht => ?_⟩
  · have hp := (h.but ∅).placed t e he (Set.notMem_empty t)
    exact { hp with
      queued := fun hq => by
        rw [band]
        have hm := hp.queued hq
        split
        · next hk =>
          rw [hk] at hm
          refine absurd ?_ ht
          cases hpr : e.priority <;> rw [hpr] at hm
          · exact List.mem_append_right _ hm
          · exact List.mem_append_left _ hm
        · exact hm
      onAir := fun ho => by
        have hm := hp.onAir ho
        by_cases hk : e.chan = c
        · rw [hk, State.chan_setChan]; rw [hk] at hm; exact hm
        · rw [State.chan_setChan_ne s _ hk]; exact hm }
  · rw [band]
    split
    · exact ⟨List.nodup_nil, fun _ hm => absurd hm List.not_mem_nil⟩
    · exact h.placed.bands k p
  · obtain ⟨e, he, hq, hc⟩ := h.queue_entry ht
    exact {
      bound := (h.but ∅).not_bound he (by rw [hq]; decide)
      held := h.not_holds he (by rw [hq]; decide)
      wheel := fun w hm => by
        have ho := ((h.but ∅).wheel_of_mem he hm).1
        rw [hq] at ho; cases ho
      bands := fun k p hm => by
        rw [band] at hm
        split at hm
        · cases hm
        · next hk => exact hk ((((h.but ∅).band_of_mem he hm).2.1).symm.trans hc)
      asked := by
        by_contra ha
        have ha' : s.launchAsked t = true := Bool.eq_true_of_not_eq_false ha
        rcases (h.but ∅).state_of_asked he ha' with hs | hs <;> rw [hq] at hs <;> cases hs }

omit h in
/-- R105: a scheduling leaves the other tags where they stand. -/
theorem State.Unplaced.schedule {t t' : Tag} (hu : s.Unplaced t') (hne : t' ≠ t) (e : Entry) (st : PageState)
    (d : Nat) : (s.schedule t e st d).Unplaced t' := by
  have slot : (s.leaveSlot t e).Unplaced t' := by
    unfold State.leaveSlot
    split
    · next w _ _ =>
      exact { hu with
        wheel := fun w' hm => by
          rw [State.wheelList_leaveWheel] at hm
          split at hm
          · exact hu.wheel w (List.mem_of_mem_erase hm)
          · exact hu.wheel w' hm }
    · exact hu
  have fields := s.schedule_frame t e st d
  exact { slot with
    bound := fun n => by rw [fields]; exact hu.bound n
    held := by rw [fields]; exact hu.held
    bands := fun c p => by rw [fields]; exact hu.bands c p
    asked := by rw [fields]; exact hu.asked
    wheel := fun w hm => by
      obtain ⟨w₀, hw₀⟩ : ∃ w₀, w₀ = (s.head + delayOf e.deadline s.time d) % 64 := ⟨_, rfl⟩
      have hm' : t' ∈ ((s.leaveSlot t e).setWheelList w₀
          ((s.leaveSlot t e).wheelList w₀ ++ [t])).wheelList w := by rw [hw₀]; exact hm
      by_cases hw : w = w₀
      · subst hw
        rw [State.wheelList_setWheelList] at hm'
        rcases List.mem_append.1 hm' with hm' | hm'
        · exact slot.wheel w hm'
        · exact hne (List.mem_singleton.1 hm')
      · rw [State.wheelList_setWheelList_ne _ _ hw] at hm'
        exact slot.wheel w hm' }

omit h in
/-- R132: the entries of an emptied queue are returned to the wheel one by one. -/
theorem State.PlacedBut.returnQueued (ts : List Tag) {u : State} (hu : u.PlacedBut {t | t ∈ ts}) (hnd : ts.Nodup)
    (unplaced : ∀ t ∈ ts, u.Unplaced t)
    (queued : ∀ t ∈ ts, ∃ e, u.entry t = some e ∧ e.wheel = none) :
    (ts.foldl State.returnQueued u).PlacesOk := by
  induction ts generalizing u with
  | nil => exact State.placesOk_iff.2 (hu.mono fun t ht => absurd ht List.not_mem_nil)
  | cons t rest ih =>
    obtain ⟨hnot, hrest⟩ := List.nodup_cons.1 hnd
    obtain ⟨e, he, hw⟩ := queued t List.mem_cons_self
    have ne : ∀ t' ∈ rest, t' ≠ t := fun t' ht' heq => hnot (heq ▸ ht')
    have first : u.PlacedBut (insert t {t' | t' ∈ rest}) :=
      hu.mono fun t' ht' => (List.mem_cons.1 ht').imp id id
    have eq : u.returnQueued t = u.schedule t e .waiting 1 := by rw [State.returnQueued, he]
    have step := first.schedule_offWheel he hw (st := .waiting) rfl 1 (unplaced t List.mem_cons_self)
    rw [List.foldl_cons, eq]
    refine ih step hrest (fun t' ht' => ?_) fun t' ht' => ?_
    · exact (unplaced t' (List.mem_cons_of_mem t ht')).schedule (ne t' ht') e _ _
    · obtain ⟨e', he', hw'⟩ := queued t' (List.mem_cons_of_mem t ht')
      refine ⟨e', ?_, hw'⟩
      have other := State.entry_setEntry_ne (s := (u.leaveSlot t e).setWheelList
        ((u.head + delayOf e.deadline u.time 1) % 64)
        ((u.leaveSlot t e).wheelList ((u.head + delayOf e.deadline u.time 1) % 64) ++ [t]))
        (t := t) (t' := t') (e := e) ((u.entry_leaveSlot t t e).trans he)
        { e with
          state := .waiting
          wheel := some ((u.head + delayOf e.deadline u.time 1) % 64,
            (delayOf e.deadline u.time 1 - 1) / 64) } (ne t' ht')
      exact other.trans ((u.entry_leaveSlot t t' e).trans he')

theorem State.PlacesOk.returnQueue (c : Chan) : (s.returnQueue c).PlacesOk := by
  obtain ⟨emptied, unplaced⟩ := h.emptyBands c
  refine emptied.returnQueued (s.chan c).queue ((h.but ∅).queue_nodup c) unplaced fun t ht => ?_
  obtain ⟨e, he, hq, -⟩ := h.queue_entry ht
  exact ⟨e, he, (h.placed.wheel t e he).2 (by rw [hq]; rfl)⟩

/-! ### Answer-backs -/

omit h in
/-- R137: a lookup of the Answer-Back Unit waits for no entry. -/
theorem State.SamePlaces.askService {u : State} (hu : s.SamePlaces u) (n : LineNo) :
    s.SamePlaces (u.askLookup (.service n)) :=
  hu.trans (.of_eq (by simp [State.places, isService]) rfl)

omit h in
theorem State.SamePlaces.beginService : s.SamePlaces s.beginService := by
  rcases s.beginService_cases with ⟨-, hu⟩ | ⟨n, -, hu⟩ <;> rw [hu]
  · exact .refl s
  · exact .askService (.of_eq (by rfl) (by rfl)) n

/-- R141, R142: a matched DECLINED. -/
theorem State.PlacesOk.declineEntry {t : Tag} {e : Entry} (he : s.entry t = some e) :
    (s.declineEntry t e).PlacesOk := by
  unfold State.declineEntry
  cases hst : e.state with
  | listening =>
    dsimp only
    have ne : e.state ≠ .assembling := by rw [hst]; decide
    split
    · exact h.endEntry _ (h.not_holds he ne)
    · have dropped : (s.dropLookup (isLaunchOf t)).PlacedBut (insert t ∅) :=
        (h.but _).dropLaunch (Set.mem_insert ..)
      refine State.placesOk_iff.2 (dropped.schedule he e rfl _ (dropped.unplaced_leaveSlot he
        ((h.but ∅).not_bound he ne) (h.not_holds he ne) (fun c p hm => ?_)
        (s.launchAsked_dropLaunch_self t)))
      have hq := ((h.but ∅).band_of_mem he hm).1
      rw [hst] at hq; cases hq
  | assembling | waiting | queued | onAir => exact h

omit h in
/-- R140: an answer-back matches no entry whose source still delivers it. -/
theorem State.matchEntry_matchable {addr serial : Nat} {t : Tag} {e : Entry}
    (hm : s.matchEntry addr serial = some (t, e)) : e.state ≠ .assembling := by
  obtain ⟨i, -, hi⟩ := List.exists_of_findSome?_eq_some hm
  split at hi
  · split at hi
    · next hc =>
      cases hi
      intro ha
      simp [Entry.matchable, ha] at hc
    · cases hi
  · cases hi

theorem State.PlacesOk.disposeFrame (n : LineNo) (f : AbFrame) (found : Bool) :
    (s.disposeFrame n f found).PlacesOk := by
  have stray : (s.countAbStray n).PlacesOk := h.congr (.of_eq rfl rfl)
  unfold State.disposeFrame
  split
  · next hm => exact h.endEntry _ (h.not_holds (State.matchEntry_entry hm) (State.matchEntry_matchable hm))
  · next hm => exact h.declineEntry (State.matchEntry_entry hm)
  · exact stray
  · exact stray
  · split
    · exact h
    · exact stray
  · exact stray

omit h in
theorem State.SamePlaces.roamFor (n : LineNo) (f : AbFrame) : s.SamePlaces (s.roamFor n f) := by
  have roam : ∀ r, s.SamePlaces (s.roamingUpdate n r) := fun r => by
    unfold State.roamingUpdate
    dsimp only
    split <;> exact .of_eq rfl rfl
  unfold State.roamFor
  split
  · exact roam _
  · exact roam _
  · exact roam _
  · exact .refl s

theorem State.PlacesOk.serveSlot (n : LineNo) : (s.serveSlot n).PlacesOk := by
  unfold State.serveSlot
  split
  · exact h
  · exact ((h.congr (.roamFor n _)).disposeFrame n _ _).congr (.of_eq rfl rfl)

/-- R7, R137 -/
theorem State.PlacesOk.serviceAnswer {t : State} (ht : execServiceAnswer s = .next t) : t.PlacesOk := by
  unfold execServiceAnswer at ht
  split at ht
  · next n ha =>
    cases ht
    obtain ⟨-, -, held, rest, hl⟩ := State.answerable_eq_some.1 ha
    have popped : s.SamePlaces s.popLookup := .of_eq (by simp [State.places, hl, isService]) rfl
    exact ((h.congr popped).serveSlot n).congr .beginService
  · cases ht; exact h

end

end Sys2Proof.Machine
end

/-! ## The commands that keep every place where it is (Chapters 1, 2, 3, 9 and 11) -/

section

namespace Sys2Proof.Machine

/-! ### A command row -/

/-- The meaning of a command keeps the places wherever its frame is taken: no frame is open then. -/
def TakeKeeps (take : Frame → State → State) : Prop :=
  ∀ f (u : State), u.PlacesOk → u.port.frame = none → (take f u).PlacesOk

/-- The meaning of a command moves no entry and nothing that waits. -/
def TakeStays (take : Frame → State → State) : Prop := ∀ f (u : State), u.SamePlaces (take f u)

theorem TakeStays.keeps {take : Frame → State → State} (h : TakeStays take) : TakeKeeps take :=
  fun f u hu _ => hu.congr (h f u)

theorem State.SamePlaces.answer {s u : State} (h : s.SamePlaces u) (c : Code) (bs : List Byte) :
    s.SamePlaces (u.answer c bs) := h.trans (.of_eq rfl rfl)

theorem State.SamePlaces.answered (s : State) (c : Code) (bs : List Byte) : s.SamePlaces (s.answer c bs) :=
  (State.SamePlaces.refl s).answer c bs

theorem State.SamePlaces.strobe {s u : State} {w cd : Bool} {b : Byte} (h : s.strobe w cd b = some u) :
    s.SamePlaces u := by
  unfold State.strobe at h
  split at h
  · split at h
    · cases h; exact .of_eq rfl rfl
    · cases h
  · cases h; exact .refl s

theorem State.SamePlaces.openFrame (s : State) (c : Cmd) (had : Bool) : s.SamePlaces (s.openFrame c had) := by
  unfold State.openFrame
  dsimp only
  split <;> split <;> exact .of_eq rfl rfl

theorem State.PlacesOk.takeFrame {take : Frame → State → State} (ht : TakeKeeps take) {s : State}
    (h : s.PlacesOk) (hf : s.port.frame = none) (f : Frame) : (s.takeFrame take f).PlacesOk := by
  unfold State.takeFrame
  split
  · exact h.congr (.answered s _ _)
  · exact ht f s h hf

/-- R161, R162: a code leaves every entry in its place when the command that it may take does. -/
theorem State.PlacesOk.portCode {take : Frame → State → State} (ht : TakeKeeps take) (c : Cmd) {s : State}
    (h : s.PlacesOk) : (portCode c take s).PlacesOk := by
  unfold Machine.portCode
  split
  · exact h
  · next s0 h0 =>
    obtain ⟨hab, none⟩ := (h.congr (.strobe h0)).abandon
    dsimp only
    split
    · exact hab.congr (.answered _ _ _)
    · next hb =>
      have idle : s0.abandon.op = .none := by simpa [State.busy] using hb
      have opened := State.SamePlaces.openFrame s0.abandon c s0.port.frame.isSome
      have hop := hab.congr opened
      have hfr := opened.frame.trans none
      split
      · exact hop.takeFrame ht hfr _
      · refine State.placesOk_iff.2 ((hop.but ∅).openFrame hfr (fun hc => ?_) (fun hn => absurd rfl hn)
          SubmitOutcome.noConfusion fun t v hv => by cases hv)
        have hcl := opened.clears hc
        simp [State.clears, idle] at hcl

/-- R161: the last byte of a command, which is no SUBMIT PAGE. -/
theorem State.PlacesOk.portLast {take : Frame → State → State} (ht : TakeKeeps take) {c : Cmd}
    (hc : c ≠ .submitPage) (b : Byte) {s : State} (h : s.PlacesOk) : (portLast c take b s).PlacesOk := by
  unfold Machine.portLast
  split
  · next s0 f h0 hf =>
    have strobed := State.SamePlaces.strobe h0
    split
    · next hm =>
      have plain : f.outcome = .none := by
        by_contra ho
        simp only [Bool.and_eq_true, decide_eq_true_eq] at hm
        exact hc (hm.1.symm.trans (h.waiters.frames f hf ho).1)
      have closed := (h.congr strobed).closePlain (strobed.frame.trans hf) plain
      dsimp only
      split
      · exact closed.congr (.answered _ _ _)
      · exact closed.takeFrame ht rfl _
    · exact h
  · exact h

theorem State.PlacesOk.portRow {take : Frame → State → State} (ht : TakeKeeps take) {c : Cmd}
    (hc : c ≠ .submitPage) (w : PortWrite) {s : State} (h : s.PlacesOk) : (portRow c take w s).PlacesOk := by
  cases w with
  | code => exact h.portCode ht c
  | last b => exact h.portLast ht hc b

/-! ### The directory (Chapter 1) -/

theorem takeAddSubscriber_stays : TakeStays takeAddSubscriber := fun f s => by
  unfold takeAddSubscriber
  split
  · exact .answered s _ _
  · split
    · split
      · exact .answered s _ _
      · split
        · exact .answered s _ _
        · split
          · exact .answered s _ _
          · exact (State.SamePlaces.answered s _ _).beginOp (by simp) (by simp)
    · exact .answered s _ _

theorem State.SamePlaces.answerRecord {s u : State} (h : s.SamePlaces u) (r : Option Subscriber) :
    s.SamePlaces (u.answerRecord r) := by
  unfold State.answerRecord
  split <;> exact h.answer _ _

theorem takeReadSubscriber_stays : TakeStays takeReadSubscriber := fun _ s =>
  (State.SamePlaces.refl s).answerRecord _

theorem takeWriteField_stays : TakeStays takeWriteField := fun f s => by
  unfold takeWriteField
  split
  · exact .answered s _ _
  · split
    · exact .answered s _ _
    · exact .answered s _ _
    · split <;> exact .of_eq rfl rfl

theorem takeLinkAccount_stays : TakeStays takeLinkAccount := fun f s => by
  have moved : ∀ a b, s.SamePlaces (s.moveRefs a b) := fun a b => by
    unfold State.moveRefs
    split <;> exact .of_eq rfl rfl
  unfold takeLinkAccount
  split
  · exact .answered s _ _
  · split
    · exact .answered s _ _
    · split
      · exact .answered s _ _
      · split
        · exact .answered s _ _
        · exact (moved _ _).trans (.of_eq rfl rfl)

theorem takeSuspend_stays : TakeStays takeSuspend := fun f s => by
  unfold takeSuspend
  split
  · exact .answered s _ _
  · split
    · exact .answered s _ _
    · split <;> exact .of_eq rfl rfl

theorem takeResume_stays : TakeStays takeResume := fun f s => by
  unfold takeResume
  split
  · exact .answered s _ _
  · split <;> exact .of_eq rfl rfl

theorem takeRetire_stays : TakeStays takeRetire := fun f s => by
  unfold takeRetire
  split
  · exact .answered s _ _
  · split
    · exact .answered s _ _
    · split
      · exact .answered s _ _
      · next r _ _ =>
        have retired : s.SamePlaces ((s.hostWrite f.sub fun r => { r with state := .retiring }).answer .ok
          [byteOf r.live]) := .of_eq rfl rfl
        dsimp only
        split
        · exact retired.beginOp (by simp) (by simp)
        · exact retired

theorem takeCursorSet_stays : TakeStays takeCursorSet := fun f s => by
  unfold takeCursorSet
  split
  · exact .answered s _ _
  · split <;> exact .of_eq rfl rfl

theorem takeCursorRead_stays : TakeStays takeCursorRead := fun f s => by
  unfold takeCursorRead
  split
  · exact (State.SamePlaces.refl s).answerRecord _
  · exact State.SamePlaces.answerRecord (.of_eq (by rfl) (by rfl)) _

theorem takeCursorReadMarked_stays : TakeStays takeCursorReadMarked := fun f s => by
  unfold takeCursorReadMarked
  split
  · exact (State.SamePlaces.refl s).answerRecord _
  · exact State.SamePlaces.answerRecord (.of_eq (by rfl) (by rfl)) _

theorem takeMarkMode_stays : TakeStays takeMarkMode := fun f s => by
  unfold takeMarkMode
  split <;> exact .of_eq rfl rfl

theorem takePartition_stays : TakeStays takePartition := fun f s => by
  unfold takePartition
  split
  · exact .answered s _ _
  · split
    · exact .answered s _ _
    · exact (State.SamePlaces.answered s _ _).beginOp (by simp) (by simp)

theorem takeMemoryStatus_stays : TakeStays takeMemoryStatus := fun _ s => .answered s _ _

/-! ### Accounts (Chapter 2) -/

theorem State.SamePlaces.commit (s : State) (i : Nat) (a : Account) : s.SamePlaces (s.commit i a) := by
  rw [State.commit_eq]; exact .of_eq rfl rfl

theorem takeOpenAccount_stays : TakeStays takeOpenAccount := fun f s => by
  unfold takeOpenAccount
  split
  · exact (State.SamePlaces.commit s _ _).answer _ _
  · exact .answered s _ _

theorem takeBar_stays : TakeStays takeBar := fun f s => by
  unfold takeBar
  split <;> exact .of_eq rfl rfl

theorem takeUnbar_stays : TakeStays takeUnbar := fun f s => by
  unfold takeUnbar
  split <;> exact .of_eq rfl rfl

theorem takeAdjustBalance_stays : TakeStays takeAdjustBalance := fun f s => by
  unfold takeAdjustBalance
  dsimp only
  split
  · exact .answered s _ _
  · exact (State.SamePlaces.commit s _ _).answer _ _

theorem takeWriteLimit_stays : TakeStays takeWriteLimit := fun f s => by
  unfold takeWriteLimit
  split
  · exact .answered s _ _
  · exact (State.SamePlaces.commit s _ _).answer _ _

theorem takeCloseAccount_stays : TakeStays takeCloseAccount := fun f s => by
  unfold takeCloseAccount
  dsimp only
  split
  · exact .answered s _ _
  · split <;> exact .of_eq rfl rfl

theorem takeReadAccount_stays : TakeStays takeReadAccount := fun _ s => .answered s _ _

theorem takeSettleBegin_stays : TakeStays takeSettleBegin := fun _ _ => .of_eq rfl rfl

theorem takeSettleRead_stays : TakeStays takeSettleRead := fun f s => by
  unfold takeSettleRead
  split <;> exact .of_eq rfl rfl

/-! ### Tables (Chapter 3) and the Load Monitor (Chapter 9) -/

theorem State.SamePlaces.moveLevel {s u : State} (h : s.SamePlaces u) (c : Chan) (l : Nat) :
    s.SamePlaces (u.moveLevel c l) :=
  h.trans (by rw [State.moveLevel_frame]; exact .of_eq rfl rfl)

theorem State.SamePlaces.recomputePool (s : State) : s.SamePlaces s.recomputePool := by
  rw [State.recomputePool_eq]; exact .of_eq rfl rfl

theorem State.SamePlaces.moveLevels (s : State) (g : Chan → Nat) : s.SamePlaces (s.moveLevels g) := by
  rw [State.moveLevels_frame]; exact .of_eq rfl rfl

/-- R24, R42, R62, R119, R150, R152: a field that takes effect moves no entry. -/
theorem State.SamePlaces.writeField (s : State) (f : Field) (v : Nat) : s.SamePlaces (s.writeField f v) := by
  rcases s.writeField_cases f v with ⟨-, hw⟩ | ⟨-, hw⟩ | ⟨-, hw⟩ | ⟨-, hw⟩ | ⟨l, -, -, -, hw⟩ | ⟨-, hw⟩ |
    ⟨⟨n, hn⟩, hw⟩ | ⟨-, -, -, -, -, -, hw⟩ <;> rw [hw]
  · rw [State.writeLow_eq]
    split
    · exact .trans (.of_eq (by rfl) (by rfl)) (.recomputePool _)
    · exact .trans (.of_eq (by rfl) (by rfl)) (.recomputePool _)
  · exact .trans (.of_eq (by rfl) (by rfl)) (.recomputePool _)
  · rw [State.writeT1_eq]
    split <;> exact .of_eq rfl rfl
  · exact .of_eq rfl rfl
  · rw [State.writeEnable_eq]; exact .trans (.of_eq (by rfl) (by rfl)) (.moveLevels _ _)
  · rw [State.writeBoot_eq]; exact .trans (.of_eq (by rfl) (by rfl)) (.moveLevels _ _)
  · rw [hn, State.writeThreshold_eq]
    exact .trans (.of_eq (by rfl) (by rfl)) (.setLine rfl)
  · exact .of_eq rfl rfl

theorem State.SamePlaces.writeTableByte (s : State) (b : Byte) : s.SamePlaces (s.writeTableByte b) := by
  unfold State.writeTableByte
  dsimp only
  split
  · exact .of_eq rfl rfl
  · split
    · exact .trans (.of_eq (by rfl) (by rfl)) (.writeField _ _ _)
    · split
      · exact .of_eq rfl rfl
      · split
        · exact .of_eq rfl rfl
        · split
          · split
            · exact .trans (.of_eq (by rfl) (by rfl)) (.writeField _ _ _)
            · exact .of_eq rfl rfl
          · exact .of_eq rfl rfl

theorem takeTablePointer_stays : TakeStays takeTablePointer := fun f s => by
  unfold takeTablePointer
  split <;> exact .of_eq rfl rfl

theorem takeTableRead_stays : TakeStays takeTableRead := fun f s => by
  unfold takeTableRead
  split <;> exact .of_eq rfl rfl

theorem takeTableWrite_stays : TakeStays takeTableWrite := fun f s => by
  unfold takeTableWrite
  split
  · exact (State.SamePlaces.foldl State.SamePlaces.writeTableByte _ s).answer _ _
  · exact .answered s _ _

theorem takeMonitorEnable_stays : TakeStays takeMonitorEnable := fun _ s =>
  have restart : ∀ (u : State) c, u.SamePlaces (u.restartMonitor c) := fun _ _ =>
    State.SamePlaces.moveLevel (.of_eq (by rfl) (by rfl)) _ _
  ((State.SamePlaces.trans (u := { s with monitorOn := true }) (.of_eq (by rfl) (by rfl)) (restart _ .A)).trans
    (restart _ .B)).answer _ _

theorem takeMonitorDisable_stays : TakeStays takeMonitorDisable := fun f s => by
  unfold takeMonitorDisable
  split
  · exact (State.SamePlaces.moveLevel (State.SamePlaces.moveLevel (.of_eq (by rfl) (by rfl)) _ _) _ _).answer _ _
  · exact .answered s _ _

theorem takeMonitorStatus_stays : TakeStays takeMonitorStatus := fun _ s => .answered s _ _

/-! ### Lines, channels, the clock and answer-backs -/

theorem onLine_stays {g : LineNo → State → State} (hg : ∀ n (u : State), u.SamePlaces (g n u)) :
    TakeStays fun f s => onLine f s g := fun f s => by
  dsimp only
  unfold onLine
  split
  · exact .answered s _ _
  · exact hg _ s

theorem onChan_stays {g : Chan → State → State} (hg : ∀ c (u : State), u.SamePlaces (g c u)) :
    TakeStays fun f s => onChan f s g := fun f s => by
  dsimp only
  unfold onChan
  split
  · exact .answered s _ _
  · exact hg _ s

theorem onSlot_stays {g : LineNo → State → State} (hg : ∀ n (u : State), u.SamePlaces (g n u)) :
    TakeStays fun f s => onSlot f s g := fun f s => by
  dsimp only
  unfold onSlot
  split
  · exact .answered s _ _
  · exact hg _ s

theorem takeLineStatus_stays : TakeStays takeLineStatus := onLine_stays fun _ u => .answered u _ _

theorem takeLineClear_stays : TakeStays takeLineClear := fun f s =>
  onLine_stays (g := fun n u => (u.setLine n ((u.line n).clearItems (f.byte 1))).answer .ok [])
    (fun n u => State.SamePlaces.answer (.setLine (l := (u.line n).clearItems (f.byte 1)) rfl) _ _) f s

theorem State.SamePlaces.setChanState (s : State) (c : Chan) (st : ChanState) : s.SamePlaces (s.setChanState c st) :=
  .setChan rfl

theorem takeChannelOpen_stays : TakeStays takeChannelOpen := onChan_stays fun _ u =>
  (State.SamePlaces.setChanState u _ _).answer _ _

theorem takeChannelDrain_stays : TakeStays takeChannelDrain := onChan_stays fun c u => by
  split
  · exact .answered u _ _
  · exact (State.SamePlaces.setChanState u _ _).answer _ _

theorem takeChannelStatus_stays : TakeStays takeChannelStatus := onChan_stays fun _ u => .answered u _ _

theorem takeChannelClear_stays : TakeStays takeChannelClear := onChan_stays fun c u =>
  State.SamePlaces.answer (.setChan (v := { u.chan c with stray := 0 }) rfl) _ _

theorem takeAnswerBackStatus_stays : TakeStays takeAnswerBackStatus := onSlot_stays fun _ u => .answered u _ _

theorem takeAnswerBackClear_stays : TakeStays takeAnswerBackClear := fun f s =>
  onSlot_stays (g := fun n u => (u.setAbSlot n ((u.abSlot n).clearItems (f.byte 1))).answer .ok [])
    (fun _ _ => .of_eq rfl rfl) f s

theorem takeSetClock_stays : TakeStays takeSetClock := fun _ _ => .of_eq rfl rfl

theorem takeReadClock_stays : TakeStays takeReadClock := fun _ s => .answered s _ _

theorem takePageStatus_stays : TakeStays takePageStatus := fun f s => by
  unfold takePageStatus State.answerGone
  split
  · exact .answered s _ _
  · split <;> exact .answered s _ _

/-! ### The port's own commands (Chapter 11) -/

theorem takeSelSubscriber_stays : TakeStays takeSelSubscriber := fun f s => by
  unfold takeSelSubscriber
  split
  · exact .answered s _ _
  · split <;> exact .of_eq rfl rfl

theorem takeSelAccount_stays : TakeStays takeSelAccount := fun f s => by
  unfold takeSelAccount
  split
  · exact .answered s _ _
  · split <;> exact .of_eq rfl rfl

theorem takeSelPage_stays : TakeStays takeSelPage := fun f s => by
  unfold takeSelPage
  split <;> exact .of_eq rfl rfl

theorem takeSelClear_stays : TakeStays takeSelClear := fun _ _ => .of_eq rfl rfl

theorem takePortWidth_stays : TakeStays takePortWidth := fun f s => by
  unfold takePortWidth
  split
  · exact .of_eq rfl rfl
  · split <;> exact .of_eq rfl rfl

theorem takeNoticeEnable_stays : TakeStays takeNoticeEnable := fun _ _ => .of_eq rfl rfl

theorem takeNoticeClear_stays : TakeStays takeNoticeClear := fun _ _ => .of_eq rfl rfl

theorem takeNoticeRead_stays : TakeStays takeNoticeRead := fun _ s => .answered s _ _

end Sys2Proof.Machine
end

/-! ## Every step keeps the places (R88) -/

section

namespace Sys2Proof.Machine

/-! ### The commands that move entries -/

/-- R95 -/
theorem takeCancelPage_keeps : TakeKeeps takeCancelPage := fun f s h hf => by
  unfold takeCancelPage
  split
  · unfold State.answerGone
    split <;> exact h.congr (.answered s _ _)
  · next e he =>
    have ended : (s.endEntry .cancelled f.page).PlacesOk := h.endEntry _ (Port.not_holds_of_no_frame hf _)
    split
    · exact h.congr (.answered s _ _)
    · exact ended.congr (.answered _ _ _)
    · exact ended.congr (.answered _ _ _)
    · exact ended.congr (.answered _ _ _)
    · have marked := (h.but ∅).setEntry_same (e' := { e with cancelPending := true }) he rfl rfl rfl rfl rfl
      exact (State.placesOk_iff.2 marked).congr (.answered _ _ _)

theorem onLine_keeps {g : LineNo → State → State} (hg : ∀ n (u : State), u.PlacesOk → (g n u).PlacesOk) :
    TakeKeeps fun f s => onLine f s g := fun f s h _ => by
  dsimp only
  unfold onLine
  split
  · exact h.congr (.answered s _ _)
  · exact hg _ s h

/-- R75: a line enabled had no entry. -/
theorem takeLineEnable_keeps : TakeKeeps takeLineEnable := onLine_keeps fun n u hu => by
  split
  · next hd =>
    have unbound := hu.bound_none (n := n) (by rw [hd]; decide) (by rw [hd]; decide)
    refine (hu.setLine_unbound (l := Line.restart { u.line n with state := .idle }) unbound unbound
      fun hl => ?_).congr (.answered _ _ _)
    rw [hd] at hl; cases hl
  · exact hu.congr (.answered u _ _)

theorem takeLineDisable_keeps : TakeKeeps takeLineDisable := onLine_keeps fun n u hu => by
  split
  · exact hu.congr (.answered u _ _)
  · exact (hu.abortLine .disable).congr (.answered _ _ _)

theorem takeLineFlush_keeps : TakeKeeps takeLineFlush := onLine_keeps fun n u hu => by
  split
  · exact hu.congr (.answered u _ _)
  · exact (hu.abortLine .flush).congr (.answered _ _ _)

/-- R132 -/
theorem takeChannelClose_keeps : TakeKeeps takeChannelClose := fun f s h _ => by
  unfold takeChannelClose onChan
  split
  · exact h.congr (.answered s _ _)
  · exact (h.returnQueue _).congr ((State.SamePlaces.setChanState _ _ _).answer _ _)

/-- With no frame open, an operation that takes time may begin. -/
theorem State.PlacesOk.withOp {s u : State} (h : s.PlacesOk) (hf : s.port.frame = none)
    (places : u.places = s.places) : u.PlacesOk := by
  have begun : State.PlacesOk { s with op := u.op } :=
    { placed := { h.placed with }, waiters := { h.waiters with quiet := fun _ => hf } }
  exact begun.congr (.of_eq places rfl)

/-- R100 -/
theorem takePurgeTraffic_keeps : TakeKeeps takePurgeTraffic := fun _ s h hf =>
  h.withOp hf ((s.answer .ok []).places_beginOp _)

/-! ### The purge (R77, R100, R101) -/

section
variable {s : State} (h : s.PlacesOk)
include h

/-- R77: the line that was assembling an entry ended by the purge goes to SKIP without it. -/
theorem State.PlacesOk.purgeEntry {t : Tag} {e : Entry} (he : s.entry t = some e) (hf : s.port.frame = none) :
    (s.purgeEntry t e).PlacesOk := by
  have ended := h.endEntry (purgeEnding e.state) (Port.not_holds_of_no_frame hf t)
  unfold State.purgeEntry
  dsimp only
  split
  · next n ha hb =>
    have bound : (s.line n).bound = some t := by simpa using List.find?_some hb
    refine ended.setLine_unbound (State.bound_endEntry _ he ha bound) rfl fun hl => ?_
    obtain ⟨b, hline⟩ := s.line_endEntry (purgeEnding e.state) t n
    rw [hline] at hl
    rcases (h.placed.lines n t bound).1 with hst | hst <;> exact absurd (hst.symm.trans hl) (by decide)
  · exact ended

theorem State.PlacesOk.purgeIndex (i : Nat) (hf : s.port.frame = none) : (s.purgeIndex i).PlacesOk := by
  unfold State.purgeIndex
  split
  · exact h
  · next e he => exact h.purgeEntry (State.entry_eq_some.2 ⟨rfl, he⟩) hf

theorem State.PlacesOk.purgeSlot {t : State} (ht : execPurgeSlot s = .next t) : t.PlacesOk := by
  unfold execPurgeSlot at ht
  split at ht
  · next i ho =>
    cases ht
    split
    · have purging : (s.purgeIndex i).op = some (.purge i) :=
        (purgeIndex_op i (by rw [ho]; exact Option.some_ne_none _)).trans ho
      exact (h.purgeIndex i (h.waiters.quiet (.inr ⟨i, ho⟩))).congr ⟨rfl, fun _ => .inr ⟨i, purging⟩⟩
    · exact h
  · cases ht; exact h

/-! ### Operations that complete -/

omit h in
/-- R16, R17: after an operation the next pending removal begins, or none. -/
theorem State.SamePlaces.completeOp {u : State} (hu : s.SamePlaces u) : s.SamePlaces u.completeOp := by
  refine hu.trans ?_
  rw [State.completeOp_eq]
  refine .of_op (fun hc => ?_) rfl
  cases u.pendingRemovals <;> simp [State.clears] at hc

theorem State.PlacesOk.purgeComplete {t : State} (ht : execPurgeComplete s = .next t) : t.PlacesOk := by
  unfold execPurgeComplete at ht
  split at ht
  · cases ht
    split
    · exact h.congr (State.SamePlaces.refl s).completeOp
    · exact h
  · cases ht; exact h

theorem State.PlacesOk.additionComplete {t : State} (ht : execAdditionComplete s = .next t) : t.PlacesOk := by
  unfold execAdditionComplete at ht
  split at ht
  · cases ht; exact h.congr (State.SamePlaces.completeOp (.of_eq rfl rfl))
  · cases ht; exact h

theorem State.PlacesOk.removalComplete {t : State} (ht : execRemovalComplete s = .next t) : t.PlacesOk := by
  unfold execRemovalComplete at ht
  split at ht
  · next a byEnding _ =>
    cases ht
    have removed : s.SamePlaces (s.removeRecord a) := by
      unfold State.removeRecord
      dsimp only
      split <;> exact .of_eq rfl rfl
    refine h.congr (State.SamePlaces.completeOp ?_)
    split
    · exact removed.trans (.of_eq rfl rfl)
    · exact removed
  · cases ht; exact h

theorem State.PlacesOk.partitionComplete {t : State} (ht : execPartitionComplete s = .next t) : t.PlacesOk := by
  unfold execPartitionComplete at ht
  split at ht
  · cases ht
    exact h.congr (State.SamePlaces.completeOp (.trans (.of_eq (by rfl) (by rfl)) (.recomputePool _)))
  · cases ht; exact h

/-! ### The resets (R3, R167) -/

omit h in
theorem State.SamePlaces.resetRegisters (u : State) :
    u.SamePlaces { ((u.clearResult).setLatch emptyLatch).setWidth false with staging := none } := .of_eq rfl rfl

theorem State.PlacesOk.portReset : s.portReset.PlacesOk := h.dropFrame.congr (.resetRegisters s.dropFrame)

omit h in
theorem State.PlacesOk.powerOn {t : State} (ht : execPowerOn s = .next t) : t.PlacesOk := by
  cases ht
  exact State.PlacesOk.withOp ⟨State.reset_placed, State.reset_waiters⟩ rfl rfl

/-- R3: no frame is open at the end of the autoclear. -/
theorem State.PlacesOk.autoclearComplete {t : State} (ht : execAutoclearComplete s = .next t) : t.PlacesOk := by
  unfold execAutoclearComplete at ht
  split at ht
  · next ho =>
    cases ht
    refine State.PlacesOk.withOp (s := State.reset) ⟨State.reset_placed, State.reset_waiters⟩ rfl ?_
    simp only [State.places, h.waiters.quiet (.inl ho)]
    rfl
  · cases ht; exact h

/-! ### The port's own bytes (R160 to R163) and the other links -/

theorem State.PlacesOk.argumentByte {b : Byte} {t : State} (ht : execArgumentByte b s = .next t) :
    t.PlacesOk := by
  unfold execArgumentByte at ht
  split at ht
  · cases ht; exact h
  · next s0 h0 =>
    have strobed := State.SamePlaces.strobe h0
    have h1 := h.congr strobed
    split at ht
    · cases ht; exact h1
    · next f hf =>
      split at ht
      · cases ht; exact h
      · split at ht
        · cases ht; exact h1
        · split at ht
          · next hc => exact h1.submitByte (strobed.frame.trans hf) hc ht
          · next hc =>
            cases ht
            have plain : f.outcome = .none := by
              by_contra ho
              exact hc (h.waiters.frames f hf ho).1
            exact State.placesOk_iff.2 ((h1.but ∅).keepFrame (g := { f with args := f.args ++ [b] })
              (strobed.frame.trans hf) rfl fun ho => absurd plain ho)

theorem State.PlacesOk.submitPage {w : PortWrite} {t : State} (ht : execSubmitPage w s = .next t) :
    t.PlacesOk := by
  cases w with
  | code => cases ht; exact h.portCode (fun _ _ hu _ => hu) _
  | last b =>
    unfold execSubmitPage State.submitLast at ht
    dsimp only at ht
    split at ht
    · next s0 f h0 hf =>
      have strobed := State.SamePlaces.strobe h0
      split at ht
      · next hc =>
        simp only [Bool.and_eq_true, decide_eq_true_eq] at hc
        exact (h.congr strobed).submitByte (strobed.frame.trans hf) hc.1 ht
      · cases ht; exact h
    · cases ht; exact h

theorem State.PlacesOk.unknownCommandCode {b : Byte} {t : State} (ht : execUnknownCommandCode b s = .next t) :
    t.PlacesOk := by
  cases ht
  split
  · exact h
  · split
    · exact h
    · next h0 =>
      obtain ⟨hab, -⟩ := (h.congr (.strobe h0)).abandon
      split <;> exact hab.congr (.answered _ _ _)

omit h in
theorem State.SamePlaces.completeRead (u : State) (cd : Bool) : u.SamePlaces (u.completeRead cd) := by
  have advance : u.SamePlaces { u with port := u.port.advance } := by
    unfold Port.advance
    split <;> exact .of_eq rfl rfl
  unfold State.completeRead
  split
  · exact advance
  · exact .refl u

omit h in
theorem State.SamePlaces.resultRead {cd : Bool} {t : State} (ht : execResultRead cd s = .next t) :
    s.SamePlaces t := by
  cases ht
  split
  · split
    · exact .trans (.of_eq (by rfl) (by rfl)) (.completeRead _ cd)
    · exact .refl s
  · exact .trans (.of_eq (by rfl) (by rfl)) (.completeRead _ cd)

omit h in
theorem State.SamePlaces.pendingNibble {write cd : Bool} {v : BitVec 4} {t : State}
    (ht : execPendingNibble write cd v s = .next t) : s.SamePlaces t := by
  cases ht
  split
  · split <;> exact .of_eq rfl rfl
  · exact .refl s

omit h in
theorem State.SamePlaces.answerBackFrame {n : LineNo} {marked : Bool} {b : Byte} {t : State}
    (ht : execAnswerBackFrame n marked b s = .next t) : s.SamePlaces t := by
  cases ht
  split <;> exact .of_eq rfl rfl

omit h in
theorem State.SamePlaces.receiptFetch {n : LineNo} {sending : Bool} {t : State}
    (ht : execReceiptFetch n sending s = .next t) : s.SamePlaces t := by
  have fetched : (s.line n).fetch.place = (s.line n).place := by
    unfold Line.fetch
    split <;> rfl
  cases ht
  split
  · exact .refl s
  · split
    · exact .of_eq rfl rfl
    · exact .trans (.setLine fetched) (.of_eq rfl rfl)

/-! ### Every step -/

/-- A meaning that answers keeps every entry in its place. -/
theorem exec_keepsPlaces {i : Instr} {t : State} (live : s.LiveOk) (ht : exec i s = .next t) : t.PlacesOk := by
  have row : ∀ {c : Cmd} {take : Frame → State → State} {w : PortWrite}, TakeKeeps take → c ≠ .submitPage →
      (Host.Outcome.next (portRow c take w s) : Res) = .next t → t.PlacesOk := fun hk hc ht => by
    cases ht; exact h.portRow hk hc _
  have code : ∀ {c : Cmd} {take : Frame → State → State}, TakeKeeps take →
      (Host.Outcome.next (portCode c take s) : Res) = .next t → t.PlacesOk := fun hk ht => by
    cases ht; exact h.portCode hk _
  cases i with
  | powerOn => exact State.PlacesOk.powerOn ht
  | autoclearComplete => exact h.autoclearComplete ht
  | portReset => cases ht; exact h.portReset
  | tick =>
    cases ht
    split
    · exact h
    · exact h.countTick
  | levelMove c => cases ht; exact h.congr (.takeLateSample s c)
  | wheelVisit w => cases ht; exact h.wheelVisit w
  | deadlineExpired w => cases ht; exact h.expireVisited w
  | windowEnd w => cases ht; exact h.endWindow w
  | launch =>
    replace ht : execLaunch s = .next t := ht
    unfold execLaunch at ht
    split at ht
    · next ha => cases ht; exact h.launch live ha
    · cases ht; exact h
  | intakeByte n b =>
    cases ht
    split
    · exact h
    · exact h.byteArrives b
  | idleByte n => cases ht; exact h.examineIdle
  | headerByte n => cases ht; exact h.takeHeaderByte
  | admission => exact admission_keepsPlaces h ht
  | textByte n => exact h.takeTextByte ht
  | checkByte n => cases ht; exact h.takeCheckByte
  | skipByte n => cases ht; exact h.takeSkipByte
  | idleTimeout n => cases ht; exact h.takeLateTick n
  | receiptFetch n sending => exact h.congr (.receiptFetch ht)
  | additionComplete => exact h.additionComplete ht
  | removalComplete => exact h.removalComplete ht
  | partitionComplete => exact h.partitionComplete ht
  | purgeSlot => exact h.purgeSlot ht
  | purgeComplete => exact h.purgeComplete ht
  | pull c sending => exact h.pull ht
  | sent c slot gen =>
    cases ht
    split
    · exact h
    · exact h.reportSent c _
  | failed c slot gen =>
    cases ht
    split
    · exact h
    · exact h.reportFailed c _
  | answerBackFrame n marked b => exact h.congr (.answerBackFrame ht)
  | answerBackService =>
    cases ht
    split
    · exact h
    · exact h.congr .beginService
  | serviceAnswer => exact h.serviceAnswer ht
  | resultRead cd => exact h.congr (.resultRead ht)
  | argumentByte b => exact h.argumentByte ht
  | unknownCommandCode b => exact h.unknownCommandCode ht
  | selSubscriber w => exact row takeSelSubscriber_stays.keeps (by decide) ht
  | selAccount w => exact row takeSelAccount_stays.keeps (by decide) ht
  | selPage w => exact row takeSelPage_stays.keeps (by decide) ht
  | selClear => exact code takeSelClear_stays.keeps ht
  | portWidth w => exact row takePortWidth_stays.keeps (by decide) ht
  | noticeEnable w => exact row takeNoticeEnable_stays.keeps (by decide) ht
  | noticeClear w => exact row takeNoticeClear_stays.keeps (by decide) ht
  | noticeRead => exact code takeNoticeRead_stays.keeps ht
  | addSubscriber w => exact row takeAddSubscriber_stays.keeps (by decide) ht
  | readSubscriber => exact code takeReadSubscriber_stays.keeps ht
  | writeField w => exact row takeWriteField_stays.keeps (by decide) ht
  | linkAccount => exact code takeLinkAccount_stays.keeps ht
  | suspend => exact code takeSuspend_stays.keeps ht
  | resume => exact code takeResume_stays.keeps ht
  | retire => exact code takeRetire_stays.keeps ht
  | cursorSet w => exact row takeCursorSet_stays.keeps (by decide) ht
  | cursorRead => exact code takeCursorRead_stays.keeps ht
  | cursorReadMarked => exact code takeCursorReadMarked_stays.keeps ht
  | markMode w => exact row takeMarkMode_stays.keeps (by decide) ht
  | partition w => exact row takePartition_stays.keeps (by decide) ht
  | memoryStatus => exact code takeMemoryStatus_stays.keeps ht
  | openAccount w => exact row takeOpenAccount_stays.keeps (by decide) ht
  | bar => exact code takeBar_stays.keeps ht
  | unbar => exact code takeUnbar_stays.keeps ht
  | adjustBalance w => exact row takeAdjustBalance_stays.keeps (by decide) ht
  | writeLimit w => exact row takeWriteLimit_stays.keeps (by decide) ht
  | closeAccount => exact code takeCloseAccount_stays.keeps ht
  | readAccount => exact code takeReadAccount_stays.keeps ht
  | tablePointer w => exact row takeTablePointer_stays.keeps (by decide) ht
  | tableRead w => exact row takeTableRead_stays.keeps (by decide) ht
  | tableWrite w => exact row takeTableWrite_stays.keeps (by decide) ht
  | lineEnable w => exact row takeLineEnable_keeps (by decide) ht
  | lineDisable w => exact row takeLineDisable_keeps (by decide) ht
  | lineFlush w => exact row takeLineFlush_keeps (by decide) ht
  | lineStatus w => exact row takeLineStatus_stays.keeps (by decide) ht
  | lineClear w => exact row takeLineClear_stays.keeps (by decide) ht
  | pageStatus => exact code takePageStatus_stays.keeps ht
  | cancelPage => exact code takeCancelPage_keeps ht
  | submitPage w => exact h.submitPage ht
  | purgeTraffic => exact code takePurgeTraffic_keeps ht
  | setClock w => exact row takeSetClock_stays.keeps (by decide) ht
  | readClock => exact code takeReadClock_stays.keeps ht
  | channelOpen w => exact row takeChannelOpen_stays.keeps (by decide) ht
  | channelDrain w => exact row takeChannelDrain_stays.keeps (by decide) ht
  | channelClose w => exact row takeChannelClose_keeps (by decide) ht
  | channelStatus w => exact row takeChannelStatus_stays.keeps (by decide) ht
  | channelClear w => exact row takeChannelClear_stays.keeps (by decide) ht
  | answerBackStatus w => exact row takeAnswerBackStatus_stays.keeps (by decide) ht
  | answerBackClear w => exact row takeAnswerBackClear_stays.keeps (by decide) ht
  | monitorEnable => exact code takeMonitorEnable_stays.keeps ht
  | monitorDisable => exact code takeMonitorDisable_stays.keeps ht
  | monitorStatus => exact code takeMonitorStatus_stays.keeps ht
  | settleBegin => exact code takeSettleBegin_stays.keeps ht
  | settleRead => exact code takeSettleRead_stays.keeps ht
  | pendingNibble write cd v => exact h.congr (.pendingNibble ht)
  | unknownReportKind c kind slot gen =>
    cases ht
    split
    · exact h
    · exact h.congr (.setChan rfl)
  | markedByteRestart n b =>
    cases ht
    refine h.congr ?_
    split <;> exact .of_eq rfl rfl

end

/-- Settles O60, by the command that the step takes: what waits in the queue has no part in the places. -/
theorem stepsKeepThePlaces : Obligations.StepsKeepThePlaces := by
  intro s t live h ht
  unfold step at ht
  split at ht
  · cases ht; exact h
  · next rest _ =>
    exact exec_keepsPlaces (s := { s with pending := rest }) (h.congr (.of_eq rfl rfl)) { live with } ht

end Sys2Proof.Machine
end

/-! ## The loss of a frame and the codes that find one open (R99, R161 to R163, R167) -/

section

namespace Sys2Proof.Machine

/-! ### The loss of a frame and the port's other registers

R99: the loss of a frame ends a page, whose ending reaches the port at its notice causes alone. -/

/-- The state with the registers of its port rewritten. -/
def State.mapPort (s : State) (g : Port → Port) : State := s.setPort (g s.port)

/-- The registers are rewritten without a look at the notice causes, which stay. -/
def KeepsCauses (g : Port → Port) : Prop := ∀ (p : Port) c, g { p with causes := c } = { g p with causes := c }

theorem KeepsCauses.causes {g : Port → Port} (hg : KeepsCauses g) (p : Port) : (g p).causes = p.causes :=
  (congrArg Port.causes (hg p p.causes) :)

theorem Port.paired_keepsCauses : KeepsCauses Port.paired := fun p c => by
  simp only [Port.paired]
  split <;> rfl

section
variable {g : Port → Port} (hg : KeepsCauses g) (s : State)
include hg

theorem State.giveBlocks_mapPort (bs : List Nat) :
    (s.mapPort g).giveBlocks bs = (s.giveBlocks bs).mapPort g := by
  simp only [State.giveBlocks_eq, State.mapPort, State.setPort, hg.causes, hg _ (if _ then _ else _)]
  rfl

theorem State.endingEvent_mapPort (i : Nat) (k : Ending) (c r : Nat) :
    (s.mapPort g).endingEvent i k c r = (s.endingEvent i k c r).mapPort g := by
  cases k with
  | delivered | sentOnly | none => rfl
  | expired | cancelled | aborted =>
    simp only [State.endingEvent, State.commit_eq, State.mapPort, State.setPort, hg.causes,
      hg _ (if _ then _ else _)]
    rfl

omit hg in
theorem State.leavePlace_mapPort (t : Tag) (e : Entry) :
    (s.mapPort g).leavePlace t e = (s.leavePlace t e).mapPort g := by
  have left := s.leavePlace_withPool t e (g s.port) s.freeBlocks s.poolHold
  refine left.trans ?_
  rw [← State.leavePlace_freeBlocks s t e, ← State.leavePlace_poolHold s t e]
  rw [State.mapPort, State.leavePlace_port]
  rfl

omit hg in
theorem State.lowerLive_mapPort (a : Nat) : (s.mapPort g).lowerLive a = (s.lowerLive a).mapPort g := by
  have removal : ∀ u : State, (u.mapPort g).endingRemoval a = (u.endingRemoval a).mapPort g := fun u => by
    rw [State.endingRemoval_eq, State.endingRemoval_eq]
    split
    · next h => rw [if_pos (show u.op = none from h)]; rfl
    · next h =>
      rw [if_neg (show ¬ u.op = none from h)]
      split
      · next hm => rw [if_pos (show a ∈ u.pendingRemovals from hm)]
      · next hm => rw [if_neg (show ¬ a ∈ u.pendingRemovals from hm)]; rfl
  have update (f : Subscriber → Subscriber) :
      (s.mapPort g).updateRecord a f = (s.updateRecord a f).mapPort g := rfl
  have record (u : State) : (u.mapPort g).record a = u.record a := rfl
  unfold State.lowerLive
  simp only [update, record, removal]
  cases (s.updateRecord a _).record a with
  | none => rfl
  | some r => exact (apply_ite (State.mapPort · g) _ _ _).symm

/-- R91: the ending of a page reads and writes the notice causes alone of the port's registers. -/
theorem State.endEntry_mapPort (k : Ending) (t : Tag) : (s.mapPort g).endEntry k t = (s.endEntry k t).mapPort g := by
  have live : (s.mapPort g).entry t = s.entry t := rfl
  cases h : s.entry t with
  | none => rw [State.endEntry_of_none k h, State.endEntry_of_none k (live.trans h)]
  | some e =>
    have refund : (s.mapPort g).refundFor k e = s.refundFor k e := rfl
    rw [State.endEntry_of_some k h, State.endEntry_of_some k (live.trans h), refund, s.giveBlocks_mapPort hg,
      State.leavePlace_mapPort, State.endingEvent_mapPort hg, State.lowerLive_mapPort]
    rfl

end

/-! ### What the loss of a frame leaves -/

theorem State.setFrame_setPort_paired (u : State) :
    (u.setPort u.port.paired).setFrame none = (u.setFrame none).setPort (u.setFrame none).port.paired := by
  cases hf : u.port.fourBit <;> simp [State.setFrame, State.setPort, Port.paired, hf]

/-- R99, R160: a frame is lost alike before and after the nibble phase ends. -/
theorem State.dropFrame_paired (s : State) :
    (s.setPort s.port.paired).dropFrame = s.dropFrame.setPort s.dropFrame.port.paired := by
  cases hf : s.port.frame with
  | none =>
    rw [State.dropFrame_frame_none hf, State.dropFrame_frame_none ((Port.paired_frame _).trans hf)]
  | some f =>
    simp only [State.dropFrame, State.setPort_port, Port.paired_frame, hf]
    cases f.outcome with
    | none | refused => exact s.setFrame_setPort_paired
    | outstanding => exact (s.dropLookup _).setFrame_setPort_paired
    | admitted t v =>
      have ended := s.endEntry_mapPort Port.paired_keepsCauses .aborted t
      exact (congrArg (State.setFrame · none) ended).trans (State.setFrame_setPort_paired _)

/-- R99: of the port's registers, the loss of a frame changes the notice causes alone. -/
theorem State.dropFrame_port (s : State) :
    ∃ c, s.dropFrame.port = { s.port with frame := none, causes := c } := by
  cases hf : s.port.frame with
  | none =>
    rw [State.dropFrame_frame_none hf, ← hf]
    exact ⟨s.port.causes, rfl⟩
  | some f =>
    simp only [State.dropFrame, hf]
    cases f.outcome with
    | none | refused | outstanding => exact ⟨s.port.causes, rfl⟩
    | admitted t v =>
      obtain ⟨m, -, hm⟩ := s.endEntry_port .aborted t
      exact ⟨s.port.causes ||| m, by simp only [State.setFrame, hm]⟩

@[simp] theorem State.dropFrame_latch (s : State) : s.dropFrame.port.latch = s.port.latch := by
  obtain ⟨c, hc⟩ := s.dropFrame_port
  rw [hc]

/-- R99: a frame lost while busy is set begins no removal. -/
theorem State.dropFrame_op_of_busy {s : State} (hb : s.op ≠ none) : s.dropFrame.op = s.op := by
  cases hf : s.port.frame with
  | none => rw [State.dropFrame_frame_none hf]
  | some f =>
    simp only [State.dropFrame, hf]
    cases f.outcome with
    | none | refused | outstanding => rfl
    | admitted t v => exact State.endEntry_op_of_busy _ _ hb

/-- R161: an open frame is abandoned: it is lost, and ABANDONED is written. -/
theorem State.abandon_of_some {s : State} (hf : s.port.frame ≠ none) :
    s.abandon = s.dropFrame.answer .abandoned [] := by
  rw [State.abandon, if_pos (Option.isSome_iff_ne_none.2 hf)]

theorem State.abandon_op (s : State) : s.abandon.op = s.dropFrame.op := by
  by_cases hf : s.port.frame = none
  · rw [State.abandon_of_none hf, State.dropFrame_frame_none hf]
  · rw [State.abandon_of_some hf]; rfl

/-- R161: a result written over ABANDONED is the one that stands. -/
theorem State.abandon_answer (s : State) (c : Code) (bs : List Byte) :
    s.abandon.answer c bs = s.dropFrame.answer c bs := by
  by_cases hf : s.port.frame = none
  · rw [State.abandon_of_none hf, State.dropFrame_frame_none hf]
  · rw [State.abandon_of_some hf]; rfl

theorem State.newFrame_congr {s u : State} (h : u.port.latch = s.port.latch) (c : Cmd) :
    u.newFrame c = s.newFrame c := by
  rw [State.newFrame, State.newFrame, h]

/-! ### The port reset -/

theorem State.resetRegisters_eq (u : State) :
    { ((u.clearResult).setLatch emptyLatch).setWidth false with staging := none } =
      { u with
        port := { u.port with
          result := [], readIdx := 0, ready := false, latch := noDesig, fourBit := false, nibble := none }
        staging := none } := by
  simp only [State.clearResult, State.setLatch, State.setWidth, emptyLatch]

@[simp] theorem State.dropFrame_tablePtr (s : State) : s.dropFrame.tablePtr = s.tablePtr := by
  cases hf : s.port.frame with
  | none => rw [State.dropFrame_frame_none hf]
  | some f =>
    simp only [State.dropFrame, hf]
    cases f.outcome with
    | none | refused | outstanding => rfl
    | admitted t v => exact State.endEntry_tablePtr s .aborted t

/-- Settles O10: the reset is the loss of the frame, and the registers after it. -/
theorem portResetClearsThePort : Obligations.PortResetClearsThePort := by
  intro s
  obtain ⟨c, port⟩ := s.dropFrame_port
  have frame := s.dropFrame_frame
  have pointer := s.dropFrame_tablePtr
  have reset := congrArg (Host.Outcome.next : State → Res) (State.resetRegisters_eq s.dropFrame)
  refine ⟨reset, fun t ht => ?_⟩
  have ht' := Host.Outcome.next.inj (reset.symm.trans ht)
  generalize s.dropFrame = u at port frame pointer ht'
  subst ht'
  exact ⟨frame, pointer, by rw [port]⟩

end Sys2Proof.Machine
end

/-! ## Codes that arrive with a frame open or while busy is set (R161 to R163) -/

section

namespace Sys2Proof.Machine

/-! ### The commands without arguments write their result afresh -/

/-- R163: the meaning of a command neither reads the result buffer nor leaves it. -/
def AnswersAfresh (take : Frame → State → State) : Prop := ∀ f (u : State), take f u.clearResult = take f u

theorem State.moveLevel_clearResult (s : State) (c : Chan) (l : Nat) :
    s.clearResult.moveLevel c l = (s.moveLevel c l).clearResult := by
  unfold State.moveLevel
  by_cases h : (s.mon c).level = l
  · rw [if_pos h, if_pos (show (s.clearResult.mon c).level = l from h)]
  · rw [if_neg h, if_neg (show ¬ (s.clearResult.mon c).level = l from h)]
    rfl

theorem takeMonitorEnable_afresh : AnswersAfresh takeMonitorEnable := fun f u => by
  have restart : ∀ (v : State) c, v.clearResult.restartMonitor c = (v.restartMonitor c).clearResult :=
    fun v c => State.moveLevel_clearResult
      (v.setMon c { v.mon c with activity := 0, up := 0, down := 0, residency := 0 }) c v.effectiveBoot
  have on : ({ u.clearResult with monitorOn := true } : State) =
      State.clearResult { u with monitorOn := true } := rfl
  simp only [takeMonitorEnable, on, restart]
  rfl

theorem takeMonitorDisable_afresh : AnswersAfresh takeMonitorDisable := fun f u => by
  have boot : State.toBootLevel { u.clearResult with monitorOn := false } =
      (State.toBootLevel { u with monitorOn := false }).clearResult :=
    (congrArg (State.moveLevel · .B _) (State.moveLevel_clearResult { u with monitorOn := false } .A _)).trans
      (State.moveLevel_clearResult _ _ _)
  simp only [takeMonitorDisable, boot, State.clearResult_monitorOn]
  rfl

theorem takeLinkAccount_afresh : AnswersAfresh takeLinkAccount := fun f u => by
  have moved : ∀ a b, u.clearResult.moveRefs a b = (u.moveRefs a b).clearResult := fun a b => by
    unfold State.moveRefs
    split <;> rfl
  simp only [takeLinkAccount, moved]
  rfl

theorem takeCancelPage_afresh : AnswersAfresh takeCancelPage := fun f u => by
  simp only [takeCancelPage, State.endEntry_clearResult]
  rfl

theorem takePurgeTraffic_afresh : AnswersAfresh takePurgeTraffic := fun _ u =>
  congrArg (State.beginOp · (.purge 0)) (show u.clearResult.answer .ok [] = u.answer .ok [] from rfl)

theorem takeSettleRead_afresh : AnswersAfresh takeSettleRead := fun f u => by
  have marked : u.clearResult.nextMarked = u.nextMarked := rfl
  unfold takeSettleRead
  rw [marked]
  cases u.nextMarked <;> rfl

/-- R161: the row of a command's code is a code on the port. -/
theorem exec_codeRow (c : Cmd) : ∃ take, ∀ s, exec (codeRow c) s = .next (portCode c take s) := by
  cases c <;> exact ⟨_, fun _ => rfl⟩

/-- R161, R163: a command without arguments is taken at its code, and writes its result afresh. -/
theorem exec_codeRow_afresh {c : Cmd} (h : cmdArgs c = 0) :
    ∃ take, (∀ s, exec (codeRow c) s = .next (portCode c take s)) ∧ AnswersAfresh take := by
  cases c with
  | linkAccount => exact ⟨_, fun _ => rfl, takeLinkAccount_afresh⟩
  | cancelPage => exact ⟨_, fun _ => rfl, takeCancelPage_afresh⟩
  | purgeTraffic => exact ⟨_, fun _ => rfl, takePurgeTraffic_afresh⟩
  | settleRead => exact ⟨_, fun _ => rfl, takeSettleRead_afresh⟩
  | monitorEnable => exact ⟨_, fun _ => rfl, takeMonitorEnable_afresh⟩
  | monitorDisable => exact ⟨_, fun _ => rfl, takeMonitorDisable_afresh⟩
  | selClear | noticeRead | readSubscriber | suspend | resume | retire | cursorRead | cursorReadMarked
  | memoryStatus | bar | unbar | closeAccount | readAccount | pageStatus | readClock
  | monitorStatus | settleBegin =>
    exact ⟨_, fun _ => rfl, fun _ _ => rfl⟩
  | _ => cases h

/-! ### A code over an open frame -/

section
variable {s : State} {c : Cmd} {take : Frame → State → State} (hr : s.byteReady true false (cmdCode c))
include hr

/-- R99, R162: a code that finds busy set. -/
theorem portCode_busy (hb : s.op ≠ none) :
    portCode c take s =
      (s.setPort s.port.paired).dropFrame.answer .busy [flagByte s.port.frame.isSome] := by
  have busy : (s.setPort s.port.paired).abandon.busy = true := by
    have kept : (s.setPort s.port.paired).dropFrame.op = s.op := State.dropFrame_op_of_busy hb
    rw [State.busy, State.abandon_op, kept]
    exact Option.isSome_iff_ne_none.2 hb
  simp only [portCode, State.strobe_of_ready hr, busy, if_true, State.abandon_answer, State.setPort_port,
    Port.paired_frame]

/-- R161, R163: a code that finds a frame open, which it abandons, and is not refused. -/
theorem portCode_abandons (hf : s.port.frame ≠ none) (idle : s.dropFrame.op = none) :
    portCode c take s =
      let u := (s.setPort s.port.paired).dropFrame.answer .abandoned []
      let v := if operative c then u.setLatch emptyLatch else u
      if cmdArgs c = 0 then v.takeFrame take (s.newFrame c) else v.setFrame (some (s.newFrame c)) := by
  have found : (s.setPort s.port.paired).port.frame ≠ none := by simpa using hf
  have still : (s.setPort s.port.paired).dropFrame.op = none := by rw [State.dropFrame_paired]; exact idle
  have latch : ((s.setPort s.port.paired).dropFrame.answer .abandoned []).port.latch = s.port.latch :=
    (State.dropFrame_latch _).trans (Port.paired_latch _)
  have some : (s.setPort s.port.paired).port.frame.isSome = true := Option.isSome_iff_ne_none.2 found
  simp only [portCode, State.strobe_of_ready hr, State.abandon_of_some found, State.newFrame_congr latch,
    State.openFrame, some, if_true]
  rw [if_neg]
  simp [State.busy, still]

end

/-- R163, R165: what a command without arguments finds in the result buffer does not matter. -/
theorem AnswersAfresh.takeFrame {take : Frame → State → State} (h : AnswersAfresh take) (f : Frame)
    (u : State) : u.clearResult.takeFrame take f = u.takeFrame take f := by
  unfold State.takeFrame
  split
  · rfl
  · exact h f u

theorem State.clearResult_openFrame (u : State) (c : Cmd) :
    (if operative c then (u.answer .abandoned []).setLatch emptyLatch else u.answer .abandoned []).clearResult =
      u.openFrame c false := by
  unfold State.openFrame
  split <;> rfl

/-- R161: a code over an open frame, where busy stays clear, acts as one that finds no frame. -/
theorem portCode_dropFrame {s : State} {c : Cmd} {take : Frame → State → State} (fresh : AnswersAfresh take)
    (ha : cmdArgs c = 0) (hr : s.byteReady true false (cmdCode c)) (hf : s.port.frame ≠ none)
    (idle : s.dropFrame.op = none) : portCode c take s = portCode c take s.dropFrame := by
  have ready : s.dropFrame.byteReady true false (cmdCode c) := by
    obtain ⟨k, hk⟩ := s.dropFrame_port
    simpa only [State.byteReady, hk] using hr
  rw [portCode_abandons hr hf idle, portCode_taken ha ready idle s.dropFrame_frame, State.dropFrame_paired,
    State.newFrame_congr s.dropFrame_latch, if_pos ha, ← fresh.takeFrame, State.clearResult_openFrame]

theorem State.answer_busy (u : State) (b : Bool) :
    u.answer .busy [flagByte b] = { u with port := u.port.answered [0x01, if b then 1 else 0] } := rfl

/-- Settles O5: a code that busy refuses, the loss of a frame by its outcome, and a code that abandons one. -/
theorem codesOverAnOpenFrame : Obligations.CodesOverAnOpenFrame := by
  refine ⟨fun s c hr hb => ?_, fun s => ⟨State.dropFrame_frame_none, fun f hf => ?_⟩, fun s c hr hf idle => ?_⟩
  · obtain ⟨take, row⟩ := exec_codeRow c
    rw [row, portCode_busy hr hb, State.answer_busy]
    rfl
  · simp only [State.dropFrame, hf]
    refine ⟨?_, fun ho => ?_, fun t v ho => ?_⟩
    · rintro (ho | ⟨reason, peer, ho⟩) <;> rw [ho] <;> rfl
    · rw [ho]; rfl
    · rw [ho]
  · refine ⟨fun ha => ?_, fun ha => ?_⟩
    · obtain ⟨take, row, fresh⟩ := exec_codeRow_afresh ha
      rw [row, row, portCode_dropFrame fresh ha hr hf idle]
    · obtain ⟨take, row⟩ := exec_codeRow c
      rw [row, portCode_abandons hr hf idle, if_neg ha, State.newFrame]
      intro u
      have latch : u.port.latch = s.port.latch := (State.dropFrame_latch _).trans (Port.paired_latch _)
      change Host.Outcome.next ((if operative c then (u.answer .abandoned []).setLatch emptyLatch
        else u.answer .abandoned []).setFrame _) = _
      clear_value u
      rw [← latch]
      cases operative c <;> rfl

end Sys2Proof.Machine
end

/-! ## SUBMIT PAGE: its bytes, its request and its completion (R79, R80, R90, R97, R98) -/

section

namespace Sys2Proof.Machine

/-! ### The bytes of the frame -/

/-- R97, R161: a SUBMIT PAGE frame is complete with its five header bytes and the text they declare. -/
theorem argsComplete_submitPage {bs : List Byte} :
    argsComplete .submitPage bs = true ↔ 5 ≤ bs.length ∧ bs.length = 5 + (bs.getD 4 0).toNat := by
  simp [argsComplete]

/-- R97: a byte after the header leaves the declared length. -/
theorem declared_append {bs : List Byte} (h : 5 ≤ bs.length) (b : Byte) :
    (bs ++ [b]).getD 4 0 = bs.getD 4 0 := by
  rw [List.getD_append _ _ _ _ (by omega)]

/-- R98: a text byte completes a frame when it is the last that the header declares. -/
theorem argsComplete_append {bs : List Byte} (h : 5 ≤ bs.length) (b : Byte) :
    argsComplete .submitPage (bs ++ [b]) = true ↔ bs.length + 1 = 5 + (bs.getD 4 0).toNat := by
  rw [argsComplete_submitPage, declared_append h, List.length_append, List.length_singleton]
  omega

/-! ### The completion of a frame -/

section
variable {s : State} {f : Frame} (hf : s.port.frame = some f)
include hf

/-- R98: a frame with text bytes to come stays open. -/
theorem State.finishSubmit_waiting (hc : ¬ argsComplete .submitPage f.args = true) : s.finishSubmit = s := by
  simp only [State.finishSubmit, hf, if_neg hc]

/-- R98: a frame whose request is outstanding stays open. -/
theorem State.finishSubmit_outstanding (ho : f.outcome = .outstanding) : s.finishSubmit = s := by
  simp only [State.finishSubmit, hf, ho, ite_self]

/-- R98: a refusal is given at the last text byte. -/
theorem State.finishSubmit_refused (hc : argsComplete .submitPage f.args = true) {reason : Reason} {peer : Nat}
    (ho : f.outcome = .refused reason peer) :
    s.finishSubmit = (s.setFrame none).setResult [byteOf (0x40 + reasonCode reason), byteOf peer] := by
  simp only [State.finishSubmit, hf, if_pos hc, ho]

/-- R90, R98: an admitted page is complete at its last text byte. -/
theorem State.finishSubmit_admitted (hc : argsComplete .submitPage f.args = true) {t : Tag} {v : Nat}
    (ho : f.outcome = .admitted t v) :
    s.finishSubmit = ((s.setFrame none).completeEntry t).answer .ok (tagBytes t ++ [byteOf v]) := by
  simp only [State.finishSubmit, hf, if_pos hc, ho]

end

/-- The state with one cell of the text memory written. -/
def State.setCell (s : State) (a : Nat) (b : Byte) : State := { s with text := tblInsert s.text a b }

/-- R90: an entry that no line is assembling has its launch asked for, and nothing else changes. -/
theorem State.completeEntry_unbound {s : State} {t : Tag} (h : ∀ n, (s.line n).bound ≠ some t) :
    s.completeEntry t = s.askLaunch t := by
  have unbind : ∀ n, (s.line n).unbind t = s.line n := fun n => if_neg (h n)
  have lines : (s.unbindLines t).lines = s.lines := by
    unfold State.unbindLines
    rw [show s.lines.v0.unbind t = s.lines.v0 from unbind 0, show s.lines.v1.unbind t = s.lines.v1 from unbind 1,
      show s.lines.v2.unbind t = s.lines.v2 from unbind 2, show s.lines.v3.unbind t = s.lines.v3 from unbind 3]
  have same : s.unbindLines t = s := by
    refine (show s.unbindLines t = { s with lines := (s.unbindLines t).lines } from rfl).trans ?_
    rw [lines]
  rw [State.completeEntry, same]

/-- R7: a lookup asked for is held while an operation is in progress or a removal is pending. -/
theorem State.askLookup_eq (s : State) (u : LookupUser) :
    s.askLookup u =
      { s with lookups := s.lookups ++ [{ user := u, held := s.op.isSome || !s.pendingRemovals.isEmpty }] } := by
  have held : (!s.lookupsOpen) = (s.op.isSome || !s.pendingRemovals.isEmpty) := by
    rw [State.lookupsOpen, Bool.not_and, Option.not_isNone]
  rw [State.askLookup, held]

/-! ### A byte of a frame that is not marked -/

section
variable {s : State} {f : Frame} {b : Byte} (hm : f.misq = false)
include hm

/-- R97: the first four header bytes are kept. -/
theorem State.submitByte_header (hlen : f.args.length < 5) : s.submitByte f b = .next (s.setFrame (some f)) := by
  rw [State.submitByte, if_neg (by simp [hm]), if_pos hlen]

/-- R97: the fifth header byte. -/
theorem State.submitByte_handsIn (hlen : f.args.length = 5) :
    s.submitByte f b = .next (s.handInPort f).finishSubmit := by
  rw [State.submitByte, if_neg (by simp [hm]), if_neg (by omega), if_pos hlen]

/-- R98: a text byte of a frame with no admitted page is kept. -/
theorem State.submitByte_kept (hlen : 5 < f.args.length) (ho : ∀ t v, f.outcome ≠ .admitted t v) :
    s.submitByte f b = .next (s.setFrame (some f)).finishSubmit := by
  have text : s.submitText f b = some (s.setFrame (some f)) := by
    unfold State.submitText
    split
    · next hadm => exact absurd hadm (ho _ _)
    all_goals rfl
  rw [State.submitByte, if_neg (by simp [hm]), if_neg (by omega), if_neg (by omega), text]

/-- R98: a text byte of an admitted page is kept, and written at its place. -/
theorem State.submitByte_written (hlen : 5 < f.args.length) {t : Tag} {v : Nat} {e : Entry} {block : Nat}
    (ho : f.outcome = .admitted t v) (he : s.entry t = some e)
    (hb : e.blocks[(f.args.length - 6) / 16]? = some block) (hp : dirCapacity s.partition + block < 4608) :
    s.submitByte f b = .next
      ((s.setFrame (some f)).setCell
        (16 * (dirCapacity s.partition + block) + (f.args.length - 6) % 16) b).finishSubmit := by
  have text : s.submitText f b = some
      ((s.setFrame (some f)).setCell (16 * (dirCapacity s.partition + block) + (f.args.length - 6) % 16) b) := by
    simp only [State.submitText, ho, he]
    exact State.writeText_eq_some.2 ⟨block, hb, hp, rfl⟩
  rw [State.submitByte, if_neg (by simp [hm]), if_neg (by omega), if_neg (by omega), text]

end

/-! ### The rows of argument bytes and of the last byte -/

section
variable {s : State} {f : Frame} {b : Byte} (hr : s.byteReady true true b) (hf : s.port.frame = some f)
include hr hf

/-- R161: a byte beyond the last is dropped. -/
theorem execArgumentByte_beyond (hn : ¬ argsComplete f.cmd (f.args ++ [b]) = true)
    (hc : argsComplete f.cmd f.args = true) : execArgumentByte b s = .next (s.setPort s.port.paired) := by
  simp only [execArgumentByte, State.strobe_of_ready hr, hf, if_neg hn, if_pos hc]

/-- R161: a byte of a frame of another command is kept. -/
theorem execArgumentByte_plain (hn : ¬ argsComplete f.cmd (f.args ++ [b]) = true)
    (hc : ¬ argsComplete f.cmd f.args = true) (hs : f.cmd ≠ .submitPage) :
    execArgumentByte b s =
      .next ((s.setPort s.port.paired).setFrame (some { f with args := f.args ++ [b] })) := by
  simp only [execArgumentByte, State.strobe_of_ready hr, hf, if_neg hn, if_neg hc, if_neg hs]

/-- R97, R98: a byte of a SUBMIT PAGE frame that is not its last. -/
theorem execArgumentByte_submit (hs : f.cmd = .submitPage) (hn : ¬ argsComplete .submitPage (f.args ++ [b]) = true)
    (hc : ¬ argsComplete .submitPage f.args = true) :
    execArgumentByte b s = (s.setPort s.port.paired).submitByte { f with args := f.args ++ [b] } b := by
  simp only [execArgumentByte, State.strobe_of_ready hr, hf, hs, if_neg hn, if_neg hc, if_true]

/-- R97, R98: the last byte of a SUBMIT PAGE frame. -/
theorem submitLast_taken (hs : f.cmd = .submitPage) (hc : argsComplete .submitPage (f.args ++ [b]) = true) :
    s.submitLast b = (s.setPort s.port.paired).submitByte { f with args := f.args ++ [b] } b := by
  simp only [State.submitLast, State.strobe_of_ready hr, hf, hs, hc, decide_true, Bool.and_self, if_true]

end

end Sys2Proof.Machine
end

/-! ## The statements about SUBMIT PAGE and the port's argument bytes (R79, R80, R90, R97, R98, R161, R162) -/

section

namespace Sys2Proof.Machine

/-! ### The last text byte -/

/-- Settles O35, by the outcome of the request at the last text byte. -/
theorem submitPageCompletes : Obligations.SubmitPageCompletes := by
  intro s f b k hr hf hs hm hlen hk
  have hc : argsComplete .submitPage (f.args ++ [b]) = true := (argsComplete_append (by omega) b).2 (by omega)
  have long : (f.args ++ [b]).length = k + 6 := by rw [List.length_append, List.length_singleton]; omega
  have taken : exec (.submitPage (.last b)) s =
      (s.setPort s.port.paired).submitByte { f with args := f.args ++ [b] } b := submitLast_taken hr hf hs hc
  have kept (ho : ∀ t v, f.outcome ≠ .admitted t v) : exec (.submitPage (.last b)) s =
      .next ((s.setPort s.port.paired).setFrame (some { f with args := f.args ++ [b] })).finishSubmit :=
    taken.trans (State.submitByte_kept hm (show 5 < (f.args ++ [b]).length by omega) ho)
  refine ⟨fun t v e block ho he hb hp unbound => ?_, fun reason peer ho => ?_, fun ho => ?_⟩
  · have place : (f.args ++ [b]).length - 6 = k := by omega
    have written := State.submitByte_written (s := s.setPort s.port.paired)
      (f := { f with args := f.args ++ [b] }) (b := b) hm (show 5 < (f.args ++ [b]).length by omega) ho he
      (show e.blocks[((f.args ++ [b]).length - 6) / 16]? = some block by rw [place]; exact hb) hp
    rw [taken, written, State.finishSubmit_admitted (f := { f with args := _ }) rfl hc ho,
      State.completeEntry_unbound (by exact unbound), State.askLaunch, State.askLookup_eq, place]
    simp only [State.setCell, State.setFrame, State.setPort, State.answer, State.setResult, State.afterLast,
      Port.answered, dirCapacity, codeByte, tagBytes, byteOf, List.cons_append, List.nil_append]
  · rw [kept (by simp [ho]), State.finishSubmit_refused (f := { f with args := _ }) rfl hc ho]
    simp only [State.setFrame, State.setPort, State.setResult, State.afterLast, Port.answered, byteOf]
  · rw [kept (by simp [ho]), State.finishSubmit_outstanding (f := { f with args := f.args ++ [b] }) rfl ho]
    rfl

/-! ### The answer of the request -/

/-- R7, R97: the port's request is the oldest lookup, and it is answered. -/
theorem execAdmission_port {s : State} {h : Header} {held : Bool} {rest : List Lookup} (idle : s.op = none)
    (clear : s.pendingRemovals = []) (hl : s.lookups = { user := .admission .port h, held := held } :: rest) :
    execAdmission s = State.answerRequest { s with lookups := rest } .port h := by
  have due : s.answerable = some (.admission .port h) := State.answerable_eq_some.2 ⟨idle, clear, held, rest, hl⟩
  have pop : s.popLookup = { s with lookups := rest } := by rw [State.popLookup, hl]; rfl
  rw [execAdmission, due, pop]

theorem State.admitPage_frame (s : State) (i : Nat) (src : Source) (h : Header) (r : Subscriber) (v : Nat) :
    (s.admitPage i src h r v).port.frame = s.port.frame := (State.SamePlaces.admitPage s i src h r v).frame

/-- Settles O34, by the verdict and whether every text byte has arrived. -/
theorem admissionReachesThePort : Obligations.AdmissionReachesThePort := by
  intro s h held rest f idle clear hl hf ho u
  have hu : u.port.frame = some f := hf
  have answered : exec .admission s = u.answerRequest .port h := execAdmission_port idle clear hl
  refine ⟨fun reason hv => ?_, fun i r v hv => ?_⟩
  · have verdict : u.verdict h = .refused reason := hv
    rw [answered, State.answerRequest, verdict]
    simp only [State.refuseSource, hu, State.setOutcome]
    by_cases hc : argsComplete .submitPage f.args = true
    · rw [if_pos (argsComplete_submitPage.1 hc),
        State.finishSubmit_refused (f := { f with outcome := .refused reason 0 }) rfl hc rfl]
      rfl
    · rw [if_neg (fun hn => hc (argsComplete_submitPage.2 hn)),
        State.finishSubmit_waiting (f := { f with outcome := .refused reason 0 }) rfl hc]
  · intro tag w x hx
    have verdict : u.verdict h = .admitted i r v := hv
    have bound : (u.admitPage i .port h r v).bindSource .port h tag v (s.freeBlocks.take (blocksOf h.len)) =
        .next x.finishSubmit := by
      have written : ((u.admitPage i .port h r v).setFrame (some { f with outcome := .admitted tag v })).writeTexts
          (s.freeBlocks.take (blocksOf h.len)) 0 (f.args.drop 5) = some x := hx
      simp only [State.bindSource, State.admitPage_frame, hu, State.setOutcome, written]
    have frame : x.port.frame = some { f with outcome := .admitted tag v } :=
      (State.SamePlaces.writeTexts hx).frame
    have taken : exec .admission s = .next x.finishSubmit := by
      rw [answered, State.answerRequest, verdict]
      exact bound
    rw [taken]
    by_cases hc : argsComplete .submitPage f.args = true
    · rw [if_pos (argsComplete_submitPage.1 hc), State.finishSubmit_admitted frame hc rfl]
      rfl
    · rw [if_neg (fun hn => hc (argsComplete_submitPage.2 hn)), State.finishSubmit_waiting frame hc]

end Sys2Proof.Machine
end

/-! ## The request of the port and the argument bytes (R79, R80, R97, R98, R161, R162) -/

section

namespace Sys2Proof.Machine

/-! ### The fifth header byte -/

/-- R169: the contents of the five header bytes, by their values. -/
theorem headerOf_five (h0 h1 h2 h3 n : Byte) :
    headerOf [h0, h1, h2, h3, n] =
      { addr := 65536 * (h1.toNat % 64) + 256 * h2.toNat + h3.toNat
        priority := if h0.getLsbD 0 then .urgent else .normal
        kind := if h0.getLsbD 1 then .text else .numeric
        len := n.toNat } := by
  have low : (h1 &&& 0x3F).toNat = h1.toNat % 64 := Nat.and_two_pow_sub_one_eq_mod h1.toNat 6
  have addr : addrOf h1 h2 h3 = 65536 * (h1.toNat % 64) + 256 * h2.toNat + h3.toNat := by
    rw [addrOf, beValue_three, low]
  rw [← addr]
  rfl

/-- R97: five header bytes are a whole frame where they declare no text. -/
theorem argsComplete_five {h0 h1 h2 h3 n : Byte} :
    argsComplete .submitPage [h0, h1, h2, h3, n] = true ↔ n = 0 := by
  rw [argsComplete_submitPage]
  show 5 ≤ 5 ∧ 5 = 5 + n.toNat ↔ n = 0
  bv_omega

theorem State.handInPort_refused {s : State} {f : Frame} {reason : Reason} {peer : Nat}
    (hr : s.arrivalRefusal (headerOf f.args) = some (reason, peer)) :
    s.handInPort f = s.setFrame (some { f with outcome := .refused reason peer }) := by
  simp only [State.handInPort, hr, State.setOutcome]

theorem State.handInPort_asked {s : State} {f : Frame} (hr : s.arrivalRefusal (headerOf f.args) = none) :
    s.handInPort f =
      (s.setFrame (some { f with outcome := .outstanding })).askLookup (.admission .port (headerOf f.args)) := by
  simp only [State.handInPort, hr, State.setOutcome]

/-- Settles O8, by the checks that are made at the arrival of the request. -/
theorem submitPageHandsIn : Obligations.SubmitPageHandsIn := by
  rintro s h0 h1 h2 h3 n ⟨hr, hf⟩ i h f refused
  obtain ⟨g, hg⟩ : ∃ g : Frame, g =
    { cmd := .submitPage, args := [h0, h1, h2, h3, n], misq := false, desig := noDesig, outcome := .none } :=
    ⟨_, rfl⟩
  have header : headerOf g.args = h := by rw [hg]; exact headerOf_five h0 h1 h2 h3 n
  have complete : argsComplete .submitPage g.args = true ↔ n = 0 := by rw [hg]; exact argsComplete_five
  -- in both rows the byte reaches the frame as its fifth
  have taken : exec i s = .next ((s.setPort s.port.paired).handInPort g).finishSubmit := by
    have fifth : (s.setPort s.port.paired).submitByte g n =
        .next ((s.setPort s.port.paired).handInPort g).finishSubmit :=
      State.submitByte_handsIn (by rw [hg]) (by rw [hg]; rfl)
    rw [hg] at fifth complete
    rw [hg]
    by_cases hn : n = 0
    · rw [show i = .submitPage (.last n) from if_pos hn]
      exact (submitLast_taken hr hf rfl (complete.2 hn)).trans fifth
    · rw [show i = .argumentByte n from if_neg hn]
      exact (execArgumentByte_submit hr hf rfl (fun hc => hn (complete.1 hc))
        (fun hc => Nat.not_succ_le_self 4 (argsComplete_submitPage.1 hc).1)).trans fifth
  have refuses (reason : Reason) (peer : Nat)
      (ha : (s.setPort s.port.paired).arrivalRefusal h = some (reason, peer)) :
      exec i s = .next (refused reason peer) := by
    rw [taken, State.handInPort_refused (by rw [header]; exact ha)]
    by_cases hn : n = 0
    · rw [show refused reason peer = _ from if_pos hn,
        State.finishSubmit_refused (f := { g with outcome := .refused reason peer }) rfl (complete.2 hn) rfl]
      simp only [State.setFrame, State.setPort, State.setResult, State.afterLast, Port.answered, byteOf]
    · rw [show refused reason peer = _ from if_neg hn,
        State.finishSubmit_waiting (f := { g with outcome := .refused reason peer }) rfl
          (fun hc => hn (complete.1 hc)), hg]
      rfl
  have disposed : (s.setPort s.port.paired).disposition h.addr = s.disposition h.addr := rfl
  have short (hn : n.toNat ≤ 240) : ¬ Config.textMax < h.len := Nat.not_lt.2 hn
  refine ⟨fun hn => ?_, fun hn p hd => ?_, fun hn hd => ?_, fun hn hd => ?_⟩
  · exact refuses _ _ (if_pos hn)
  · exact refuses _ _ (by simp only [State.arrivalRefusal, if_neg (short hn), disposed, hd])
  · exact refuses _ _ (by simp only [State.arrivalRefusal, if_neg (short hn), disposed, hd])
  · have asked := State.handInPort_asked (f := g) (s := s.setPort s.port.paired) 
      (by simp only [header, State.arrivalRefusal, if_neg (short hn), disposed, hd])
    rw [taken, asked, header, State.askLookup_eq, State.finishSubmit_outstanding
      (f := { g with outcome := .outstanding }) rfl rfl, hg]
    rfl

end Sys2Proof.Machine
end

/-! ## Argument bytes, text bytes and codes not in the table (R98, R161, R162) -/

section

namespace Sys2Proof.Machine

/-- R165: a byte of a marked SUBMIT PAGE frame that is not its last is only consumed. -/
theorem State.submitByte_misq {s : State} {f : Frame} {b : Byte} (hm : f.misq = true)
    (hn : ¬ argsComplete .submitPage f.args = true) : s.submitByte f b = .next (s.setFrame (some f)) := by
  rw [State.submitByte, if_pos hm, if_neg hn]

/-! ### Argument bytes -/

section
variable {s : State} {b : Byte} (hr : s.byteReady true true b)
include hr

theorem execArgumentByte_dropped (hf : s.port.frame = none) :
    execArgumentByte b s = .next (s.setPort s.port.paired) := by
  simp only [execArgumentByte, State.strobe_of_ready hr, hf]

/-- R161, R97: an argument byte that is not its frame's last, and neither the fifth header byte nor a text byte
of a SUBMIT PAGE frame that is not marked. -/
theorem execArgumentByte_joins {f : Frame} (hf : s.port.frame = some f)
    (hn : argsComplete f.cmd (f.args ++ [b]) = false) (hc : argsComplete f.cmd f.args = false)
    (hk : f.cmd ≠ .submitPage ∨ f.args.length < 4 ∨ f.misq = true) :
    execArgumentByte b s =
      .next ((s.setPort s.port.paired).setFrame (some { f with args := f.args ++ [b] })) := by
  by_cases hs : f.cmd = .submitPage
  · rw [hs] at hn hc
    rw [execArgumentByte_submit hr hf hs (Bool.eq_false_iff.1 hn) (Bool.eq_false_iff.1 hc)]
    by_cases hm : f.misq = true
    · exact State.submitByte_misq hm (Bool.eq_false_iff.1 hn)
    · have short : f.args.length < 4 := (hk.resolve_left (not_not_intro hs)).resolve_right hm
      refine State.submitByte_header (Bool.eq_false_iff.2 hm) ?_
      show (f.args ++ [b]).length < 5
      rw [List.length_append, List.length_singleton]
      omega
  · exact execArgumentByte_plain hr hf (Bool.eq_false_iff.1 hn) (Bool.eq_false_iff.1 hc) hs

end

/-! ### Text bytes that are not the last -/

/-- R98: before the last text byte the frame is not complete, with the byte or without it. -/
theorem argsIncomplete {bs : List Byte} (h : 5 ≤ bs.length) (b : Byte)
    (more : bs.length - 5 + 1 < (bs.getD 4 0).toNat) :
    ¬ argsComplete .submitPage (bs ++ [b]) = true ∧ ¬ argsComplete .submitPage bs = true := by
  rw [argsComplete_append h, argsComplete_submitPage]
  omega

section
variable {s : State} {f : Frame} {b : Byte} (hr : s.byteReady true true b) (hf : s.port.frame = some f)
  (hs : f.cmd = .submitPage) (hm : f.misq = false) (hlen : 5 ≤ f.args.length)
  (more : f.args.length - 5 + 1 < (f.args.getD 4 0).toNat)
include hr hf hs hm hlen more

/-- R98: a text byte is only kept while the request is outstanding, or once it is refused. -/
theorem execArgumentByte_kept (ho : ∀ t v, f.outcome ≠ .admitted t v) :
    execArgumentByte b s =
      .next ((s.setPort s.port.paired).setFrame (some { f with args := f.args ++ [b] })) := by
  obtain ⟨last, full⟩ := argsIncomplete hlen b more
  have long : 5 < (f.args ++ [b]).length := by rw [List.length_append, List.length_singleton]; omega
  rw [execArgumentByte_submit hr hf hs last full,
    State.submitByte_kept (f := { f with args := f.args ++ [b] }) hm long ho,
    State.finishSubmit_waiting (f := { f with args := f.args ++ [b] }) rfl last]

/-- R98: a text byte of an admitted page is kept, and written at its place. -/
theorem execArgumentByte_written {t : Tag} {v : Nat} {e : Entry} {block : Nat} (ho : f.outcome = .admitted t v)
    (he : s.entry t = some e) (hb : e.blocks[(f.args.length - 5) / 16]? = some block)
    (hp : dirCapacity s.partition + block < 4608) :
    execArgumentByte b s =
      .next (((s.setPort s.port.paired).setFrame (some { f with args := f.args ++ [b] })).setCell
        (16 * (dirCapacity s.partition + block) + (f.args.length - 5) % 16) b) := by
  obtain ⟨last, full⟩ := argsIncomplete hlen b more
  have long : (f.args ++ [b]).length = f.args.length + 1 := by rw [List.length_append, List.length_singleton]
  have place : (f.args ++ [b]).length - 6 = f.args.length - 5 := by omega
  have written := State.submitByte_written (s := s.setPort s.port.paired) (f := { f with args := f.args ++ [b] })
    (b := b) hm (show 5 < (f.args ++ [b]).length by omega) ho he
    (show e.blocks[((f.args ++ [b]).length - 6) / 16]? = some block by rw [place]; exact hb) hp
  rw [execArgumentByte_submit hr hf hs last full, written,
    State.finishSubmit_waiting (f := { f with args := f.args ++ [b] }) rfl last, place, State.setPort_partition]

end

/-! ### Codes not in the table -/

/-- R161, R162: an unknown code abandons an incomplete frame; busy, judged after that, decides its result. -/
theorem execUnknownCommandCode_eq {s : State} {b : Byte} (unknown : ∀ c, cmdCode c ≠ b)
    (hr : s.byteReady true false b) :
    let u := (s.setPort s.port.paired).dropFrame
    execUnknownCommandCode b s = .next
      (if u.op = none then u.answer .range [] else u.answer .busy [flagByte s.port.frame.isSome]) := by
  intro u
  have known : ¬ codeKnown b = true := by simp [codeKnown, unknown]
  have busy : (s.setPort s.port.paired).abandon.busy = true ↔ ¬ u.op = none := by
    rw [State.busy, State.abandon_op, Option.isSome_iff_ne_none]
  simp only [execUnknownCommandCode, if_neg known, State.strobe_of_ready hr, State.abandon_answer, busy, ite_not,
    State.setPort_port, Port.paired_frame]
  rfl

/-- Settles O7: the bytes of other frames and of headers, the text bytes by the outcome of the request, and
the codes not in the table. -/
theorem argumentAndUnknownBytes : Obligations.ArgumentAndUnknownBytes := by
  refine ⟨fun s b hr => ⟨execArgumentByte_dropped hr, fun f hf hn hc hk => execArgumentByte_joins hr hf hn hc hk⟩,
    fun s b f hr hf hs hm hlen => ?_, fun s b unknown hr => ?_⟩
  · intro len k joined
    have kept (more : k + 1 < len) (ho : ∀ t v, f.outcome ≠ .admitted t v) :
        exec (.argumentByte b) s = .next joined := execArgumentByte_kept hr hf hs hm hlen more ho
    refine ⟨fun more => ⟨fun ho => kept more (by simp [ho]), fun reason peer ho => kept more (by simp [ho]),
      fun t v e block ho he hb hp => ?_⟩, fun hk => ?_⟩
    · exact ⟨_, execArgumentByte_written hr hf hs hm hlen more ho he hb hp, cellRead_tblInsert _ _ _,
        fun a' ha' => cellRead_tblInsert_ne _ _ ha', rfl⟩
    · have full : argsComplete f.cmd f.args = true := by
        rw [hs]
        exact argsComplete_submitPage.2 ⟨hlen, by omega⟩
      have beyond : ¬ argsComplete f.cmd (f.args ++ [b]) = true := fun hc => by
        rw [hs] at hc
        have := (argsComplete_append hlen b).1 hc
        omega
      exact execArgumentByte_beyond hr hf beyond full
  · intro u
    refine (execUnknownCommandCode_eq unknown hr).trans ?_
    change Host.Outcome.next (if u.op = none then u.answer .range [] else
      u.answer .busy [flagByte s.port.frame.isSome]) = _
    clear_value u
    by_cases idle : u.op = none
    · rw [if_pos idle, if_pos idle]; rfl
    · rw [if_neg idle, if_neg idle]; rfl

end Sys2Proof.Machine
end

/-! ## Scheduling on the Retry Wheel (R105, R106) -/

section

namespace Sys2Proof.Machine

/-- R105, step 1: the delay is 1 with less than a second left, and limited to the time left otherwise. -/
theorem delayOf_eq (deadline time d : Nat) :
    delayOf deadline time d =
      if deadline < time + 1 then 1 else if deadline - time < d then deadline - time else d := by
  unfold delayOf
  by_cases late : deadline ≤ time
  · rw [if_pos late, if_pos (Nat.lt_succ_of_le late)]
  · rw [if_neg late, if_neg (by omega), Nat.min_def]
    split <;> split <;> omega

/-- R105: a delay of one second is not shortened. -/
theorem delayOf_one (deadline time : Nat) : delayOf deadline time 1 = 1 := by
  unfold delayOf
  split <;> omega

/-! ### Leaving a wheel slot -/

section
variable {s : State} {t : Tag} {e : Entry}

theorem State.leaveSlot_onWheel {w r : Nat} (h : e.wheel = some (w, r)) : s.leaveSlot t e = s.leaveWheel t w := by
  rw [State.leaveSlot, h]

theorem State.leaveSlot_offWheel (h : e.wheel = none) : s.leaveSlot t e = s := by
  rw [State.leaveSlot, h]

/-- R106: leaving a slot writes the wheel and its visits. -/
theorem State.leaveSlot_frame (s : State) (t : Tag) (e : Entry) :
    s.leaveSlot t e = { s with wheel := (s.leaveSlot t e).wheel, visits := (s.leaveSlot t e).visits } := by
  unfold State.leaveSlot
  split <;> rfl

theorem State.slot_leaveSlot (s : State) (t : Tag) (e : Entry) (j : Nat) :
    (s.leaveSlot t e).slot j = s.slot j := State.slot_congr (by rw [State.leaveSlot_frame]) j

/-- R106: what leaving a slot writes depends on the wheel and the visits alone. -/
theorem State.leaveSlot_congr {s u : State} (wheel : u.wheel = s.wheel) (visits : u.visits = s.visits)
    (t : Tag) (e : Entry) :
    (u.leaveSlot t e).wheel = (s.leaveSlot t e).wheel ∧
      (u.leaveSlot t e).visits = (s.leaveSlot t e).visits := by
  unfold State.leaveSlot
  split
  · simp only [State.leaveWheel, State.setWheelList, State.wheelList, wheel, visits, and_self]
  · exact ⟨wheel, visits⟩

/-- R107: the visits that a tag has been taken off. -/
theorem visitsWithout_eq (vs : List Visit) (w : Nat) (t : Tag) :
    visitsWithout vs w t =
      (vs.map (fun v => if v.slot = w then { v with todo := v.todo.erase t } else v)).filter
        (fun v => decide (v.todo ≠ [])) := by
  refine List.filter_congr fun v _ => ?_
  cases v.todo <;> rfl

end

/-! ### Taking a slot -/

section
variable (s : State) (t : Tag) (e : Entry) (st : PageState) (d : Nat)

/-- R106: the tag joins the tail of the slot that its delay names. -/
theorem State.wheelList_schedule :
    (s.schedule t e st d).wheelList ((s.head + delayOf e.deadline s.time d) % 64) =
      (s.leaveSlot t e).wheelList ((s.head + delayOf e.deadline s.time d) % 64) ++ [t] :=
  State.wheelList_setWheelList ..

theorem State.wheelList_schedule_ne {x : Nat} (hx : x ≠ (s.head + delayOf e.deadline s.time d) % 64) :
    (s.schedule t e st d).wheelList x = (s.leaveSlot t e).wheelList x :=
  State.wheelList_setWheelList_ne _ _ hx

theorem State.schedule_visits : (s.schedule t e st d).visits = (s.leaveSlot t e).visits := rfl

/-- R105: the entry records its slot and the rounds it has still to wait there. -/
theorem State.slot_schedule :
    (s.schedule t e st d).slot t.slot =
      { s.slot t.slot with entry := some { e with
          state := st
          wheel := some ((s.head + delayOf e.deadline s.time d) % 64, (delayOf e.deadline s.time d - 1) / 64) } } := by
  rw [← s.slot_leaveSlot t e]
  exact State.slot_setEntry ..

theorem State.slot_schedule_ne {j : Nat} (hj : j ≠ t.slot) : (s.schedule t e st d).slot j = s.slot j := by
  rw [← s.slot_leaveSlot t e]
  exact State.slot_setEntry_ne _ _ hj

end

/-- Settles O42, by whether the entry stands on a slot that it has to leave. -/
theorem schedulingPlacesTheEntry : Obligations.SchedulingPlacesTheEntry := by
  intro s t e st d _ d' w u left
  have delay : delayOf e.deadline s.time d = d' := delayOf_eq ..
  have lists : ∀ x, (s.leaveSlot t e).wheelList x = left x := by
    intro x
    cases hw : e.wheel with
    | none => simp only [State.leaveSlot_offWheel hw, left, hw]
    | some p =>
      simp only [State.leaveSlot_onWheel hw, State.wheelList_leaveWheel, left, hw]
      refine if_ctx_congr .rfl (fun hx => ?_) fun _ => rfl
      rw [hx]
  have visits : u.visits = (s.leaveSlot t e).visits := State.schedule_visits ..
  have joined := s.wheelList_schedule t e st d
  have others := fun x => s.wheelList_schedule_ne t e st d (x := x)
  have written := s.slot_schedule t e st d
  rw [delay] at joined written
  simp only [delay, lists] at joined others
  refine ⟨joined, others, written, fun j hj => s.slot_schedule_ne t e st d hj, ?_,
    (s.schedule_frame t e st d).trans rfl⟩
  rw [visits]
  cases hw : e.wheel with
  | none => rw [State.leaveSlot_offWheel hw]
  | some p =>
    rw [State.leaveSlot_onWheel hw]
    exact visitsWithout_eq ..

end Sys2Proof.Machine
end

/-! ## The visit of a wheel slot (R107, R108, R116) -/

section

namespace Sys2Proof.Machine

/-! ### The next tag of a visit -/

section
variable {before after : List Visit} {w : Nat} {t : Tag} {more : List Tag} (first : ∀ v ∈ before, v.slot ≠ w)
include first

/-- R107: a visit passes its next tag, and is over with the last. -/
theorem visitsPast_append :
    visitsPast (before ++ { slot := w, todo := t :: more } :: after) w =
      before ++ (if more = [] then after else { slot := w, todo := more } :: after) := by
  induction before with
  | nil => simp only [List.nil_append, visitsPast, List.tail_cons, if_true, List.isEmpty_iff]
  | cons v rest ih =>
    obtain ⟨hv, hrest⟩ := List.forall_mem_cons.1 first
    rw [List.cons_append, visitsPast, if_neg hv, ih hrest, List.cons_append]

/-- R107: the oldest visit of a slot gives the tag that is examined next. -/
theorem State.visited_eq_some {s : State}
    (hv : s.visits = before ++ { slot := w, todo := t :: more } :: after) : s.visited w = some t := by
  have skipped : before.find? (fun v => v.slot = w) = none :=
    List.find?_eq_none.2 fun v hm => by simpa using first v hm
  simp [State.visited, hv, List.find?_append, skipped]

theorem State.passVisit_eq {s : State} (hv : s.visits = before ++ { slot := w, todo := t :: more } :: after) :
    s.passVisit w =
      { s with visits := before ++ (if more = [] then after else { slot := w, todo := more } :: after) } := by
  rw [State.passVisit, hv, visitsPast_append first]

end

/-! ### What becomes of the entry examined -/

section
variable {s : State} {t : Tag} {e : Entry}

theorem Entry.rounds_eq {w r : Nat} (h : e.wheel = some (w, r)) : e.rounds = r := by
  rw [Entry.rounds, h]; rfl

/-- R108: the window of a due LISTENING entry has ended while no launch of it is asked for. -/
theorem State.windowEnded_iff :
    s.windowEnded t e = true ↔ e.rounds = 0 ∧ e.state = .listening ∧ s.launchAsked t = false := by
  simp [State.windowEnded, and_assoc]

theorem State.deadlineReached_iff : s.deadlineReached e = true ↔ e.deadline ≤ s.time := decide_eq_true_iff

variable {w : Nat} (next : s.visited w = some t) (he : s.entry t = some e)
include next he

/-- R108, step 1 -/
theorem State.expireVisited_of_late (late : e.deadline ≤ s.time) :
    s.expireVisited w = (s.passVisit w).endEntry .expired t := by
  simp only [State.expireVisited, next, he, if_pos (State.deadlineReached_iff.2 late)]

variable (early : s.time < e.deadline)
include early

/-- R108, steps 2 and 3: what the visit does before the deadline, the window of a LISTENING entry not
ended. -/
theorem State.wheelVisit_of_early (running : ¬ s.windowEnded t e = true) :
    s.wheelVisit w =
      if 0 < e.rounds then (s.passVisit w).setEntry t.slot e.fallRound
      else if s.launchAsked t then s.passVisit w
      else (s.passVisit w).askLaunch t := by
  have goesOn : ¬ (s.deadlineReached e || s.windowEnded t e) = true := by
    rw [Bool.or_eq_true, State.deadlineReached_iff]
    exact fun h => h.elim (Nat.not_le.2 early) running
  simp only [State.wheelVisit, next, he, if_neg goesOn]

/-- R108, step 3, R116: what the visit does at the end of a window. -/
theorem State.endWindow_of_early (ended : s.windowEnded t e = true) :
    s.endWindow w =
      if e.attempts = e.maxAttempts then (s.passVisit w).endEntry .expired t
      else (s.passVisit w).askLaunch t := by
  have inTime : s.deadlineReached e = false :=
    Bool.eq_false_iff.2 (mt State.deadlineReached_iff.1 (Nat.not_le.2 early))
  simp only [State.endWindow, next, he, ended, inTime]
  rfl

end

/-- Settles O43, by the deadline, the rounds, the launch asked for and the state of the entry. -/
theorem visitsExamineTheEntry : Obligations.VisitsExamineTheEntry := by
  intro s w t more e w' rounds before after hv first he hw u asked
  have next : s.visited w = some t := State.visited_eq_some first hv
  have passed : s.passVisit w = u := State.passVisit_eq first hv
  have hr : e.rounds = rounds := Entry.rounds_eq hw
  have launch : (s.passVisit w).askLaunch t = asked := by
    rw [passed, State.askLaunch, State.askLookup_eq]
  refine ⟨fun late => ?_, fun early some_left => ?_, fun early due isAsked => ?_,
    fun early due unasked waiting => ?_, fun early due unasked listening => ?_⟩
  · exact congrArg Host.Outcome.next (by rw [State.expireVisited_of_late next he late, passed])
  · have running : ¬ s.windowEnded t e = true := fun h => by
      have := (State.windowEnded_iff.1 h).1
      omega
    have fallen : e.fallRound = { e with wheel := some (w', rounds - 1) } := by rw [Entry.fallRound, hw]; rfl
    refine congrArg Host.Outcome.next ?_
    rw [State.wheelVisit_of_early next he early running, hr, if_pos some_left, passed, fallen]
    rfl
  · have running : ¬ s.windowEnded t e = true := fun h => by
      rw [(State.windowEnded_iff.1 h).2.2] at isAsked
      cases isAsked
    refine congrArg Host.Outcome.next ?_
    rw [State.wheelVisit_of_early next he early running, hr, if_neg (Nat.not_lt.2 due.le), if_pos isAsked, passed]
  · have running : ¬ s.windowEnded t e = true := fun h => by
      rw [(State.windowEnded_iff.1 h).2.1] at waiting
      cases waiting
    refine congrArg Host.Outcome.next ?_
    rw [State.wheelVisit_of_early next he early running, hr, if_neg (Nat.not_lt.2 due.le), unasked]
    exact launch
  · have ended : s.windowEnded t e = true := State.windowEnded_iff.2 ⟨hr.trans due, listening, unasked⟩
    have gone := State.endWindow_of_early next he early ended
    refine ⟨fun last => congrArg Host.Outcome.next ?_, fun notLast => congrArg Host.Outcome.next ?_⟩
    · rw [gone, if_pos last, passed]
    · rw [gone, if_neg notLast, launch]

end Sys2Proof.Machine
end

/-! ## The launch of an entry (R110 to R115) -/

section

namespace Sys2Proof.Machine

/-! ### Tier and zone mask -/

/-- R111, R112: the tier that a launch chooses, from the channel's level. -/
theorem demoted_eq (tier level : Nat) : demoted tier level = if tier = 3 ∧ level = 3 then 2 else tier := by
  simp only [demoted, Bool.and_eq_true, decide_eq_true_eq]

theorem tierOf_eq (a t1 t2 : Nat) (oneWay : Bool) :
    tierOf a t1 t2 oneWay = if oneWay = true ∨ a ≤ t1 then 1 else if a ≤ t2 then 2 else 3 := by
  cases oneWay <;> simp [tierOf]

/-! ### The two outcomes -/

section
variable {s : State}

/-- R7, R110: the lookup of the oldest launch is answered with its record, and the launch goes by the room of
its channel's queue. -/
theorem execLaunch_answered {t : Tag} {held : Bool} {rest : List Lookup} {e : Entry} {r : Subscriber}
    (idle : s.op = none) (clear : s.pendingRemovals = [])
    (hl : s.lookups = { user := .launch t, held := held } :: rest) (he : s.entry t = some e)
    (hr : s.record e.addr = some r) :
    exec .launch s = .next
      (if s.launchBlocked e.chan = true then State.deferLaunch { s with lookups := rest } t e
      else State.placeLaunch { s with lookups := rest } t e (s.attemptFor e r)) := by
  have due : s.answerable = some (.launch t) := State.answerable_eq_some.2 ⟨idle, clear, held, rest, hl⟩
  have pop : s.popLookup = { s with lookups := rest } := by rw [State.popLookup, hl]; rfl
  have he' : State.entry { s with lookups := rest } t = some e := he
  have hr' : State.record { s with lookups := rest } e.addr = some r := hr
  change execLaunch s = _
  simp only [execLaunch, due, pop, State.launch, he', hr']
  rfl

/-- R115: a launch is blocked by a channel not OPEN or a full queue. -/
theorem State.launchBlocked_iff {c : Chan} :
    s.launchBlocked c = true ↔
      ¬ ((s.chan c).state = .opened ∧ (s.chan c).urgent.length + (s.chan c).normal.length < 64) := by
  rw [State.launchBlocked, Bool.or_eq_true, decide_eq_true_eq, decide_eq_true_eq, not_and_or, Nat.not_lt]
  rfl

variable (s : State) (t : Tag) (e : Entry) (a : Attempt)

/-- R114: the entry is QUEUED with its attempt, on no wheel slot. -/
theorem State.slot_placeLaunch :
    (s.placeLaunch t e a).slot t.slot =
      { s.slot t.slot with entry := some { e with state := .queued, attempt := some a, wheel := none } } := by
  rw [← s.slot_leaveSlot t e]
  exact State.slot_setEntry ..

theorem State.slot_placeLaunch_ne {j : Nat} (hj : j ≠ t.slot) : (s.placeLaunch t e a).slot j = s.slot j := by
  rw [← s.slot_leaveSlot t e]
  exact State.slot_setEntry_ne _ _ hj

/-- R114: placing an entry takes it off its wheel slot and its line, and puts its tag at the tail of its
band. -/
theorem State.placeLaunch_frame :
    s.placeLaunch t e a =
      { s with
        slots := (s.placeLaunch t e a).slots
        wheel := (s.leaveSlot t e).wheel, visits := (s.leaveSlot t e).visits
        lines := (s.unbindLines t).lines
        chans := s.chans.put e.chan ((s.chan e.chan).enqueue e.priority t) } := by
  unfold State.placeLaunch
  rw [State.leaveSlot_frame]
  rfl

end

/-- Settles O44, by the room of the channel's queue. -/
theorem launchesPlaceOrDefer : Obligations.LaunchesPlaceOrDefer := by
  intro s t held rest e r idle clear hl he hr u ch room first tier own mask
  have launched := execLaunch_answered idle clear hl he hr
  refine ⟨fun full => ?_, fun free => ?_⟩
  · rw [launched, if_pos (State.launchBlocked_iff.2 full)]
    rfl
  · have attempt : s.attemptFor e r = { mask := mask, tier := tier, oneWay := r.oneWay } := by
      simp only [State.attemptFor, demoted_eq, tierOf_eq]
      rfl
    rw [if_neg fun blocked => State.launchBlocked_iff.1 blocked free, attempt] at launched
    refine ⟨_, launched, State.slot_placeLaunch u t e _, fun j hj => State.slot_placeLaunch_ne u t e _ hj, ?_⟩
    obtain ⟨wheel, visits⟩ := State.leaveSlot_congr (s := s) (u := u) rfl rfl t e
    have frame := State.placeLaunch_frame u t e { mask := mask, tier := tier, oneWay := r.oneWay }
    rw [wheel, visits] at frame
    refine frame.trans ?_
    cases e.priority <;> rfl

end Sys2Proof.Machine
end

/-! ## The channel commands (R132, R133) -/

section

namespace Sys2Proof.Machine

/-! ### The channel of the argument -/

/-- R132: a channel command with a channel code for its argument. -/
theorem onChan_code {f : Frame} {b : Byte} (hf : f.args = [b]) {c : Chan}
    (hb : b = chanByte c) (s : State) (g : Chan → State → State) :
    onChan f s g = g c s := by
  have code : chanOfCode (f.arg 0) = some c := by
    rw [Frame.arg, Frame.byte, hf, hb]
    cases c <;> rfl
  simp only [onChan, code]

/-- R132: another argument gives RANGE. -/
theorem onChan_range {f : Frame} {b : Byte} (hf : f.args = [b]) (hb : 1 < b.toNat) (s : State)
    (g : Chan → State → State) : onChan f s g = s.answer .range [] := by
  have code : chanOfCode (f.arg 0) = none := by
    rw [Frame.arg, Frame.byte, hf]
    exact chanOfCode_eq_none hb
  simp only [onChan, code]

section
variable {s : State} {cmd : Cmd} {b : Byte} {g : Chan → State → State}
  (harr : s.lastArrives cmd [] b noDesig) (idle : s.op = none) (hc : argsComplete cmd [b] = true)
include harr idle hc

/-- R132: a channel command is taken on the channel of its argument, with its frame closed. -/
theorem portLast_onChan {c : Chan} (hb : b = chanByte c) :
    portLast cmd (fun f u => onChan f u g) b s = g c s.lastTaken := by
  rw [portLast_taken harr (.inl idle) hc]
  exact onChan_code rfl hb _ _

theorem portLast_onChan_range (hb : 1 < b.toNat) :
    portLast cmd (fun f u => onChan f u g) b s = s.afterLast [0x07] := by
  rw [portLast_taken harr (.inl idle) hc]
  exact onChan_range rfl hb _ _

end

/-- R132: an argument above B gives RANGE at each of the channel commands. -/
theorem channelCommand_range {s : State} {b : Byte} (idle : s.op = none) {c : Cmd} {i : Instr}
    (row : lastRow c b = some i)
    (hc : c ∈ ([.channelOpen, .channelDrain, .channelClose, .channelStatus, .channelClear] : List Cmd))
    (harr : s.lastArrives c [] b noDesig) (hb : 1 < b.toNat) : exec i s = .next (s.afterLast [0x07]) := by
  have refused (complete : argsComplete c [b] = true) (g : Chan → State → State) :
      Host.Outcome.next (portLast c (fun f u => onChan f u g) b s) =
        (.next (s.afterLast [0x07]) : Res) :=
    congrArg Host.Outcome.next (portLast_onChan_range harr idle complete hb)
  simp only [List.mem_cons, List.not_mem_nil, or_false] at hc
  rcases hc with rfl | rfl | rfl | rfl | rfl
  all_goals
    cases row
    exact refused rfl _

/-! ### The queue's return to the wheel -/

/-- R105, R132: the entry of a tag that has been returned, on slot `w`. -/
def Entry.returned (e : Entry) (w : Nat) : Entry := { e with state := .waiting, wheel := some (w, 0) }

/-- R105, R132: `v` is `u` with the entries of the tags `ts` returned, in their order, to the slot after the
head. -/
structure State.Returns (u : State) (ts : List Tag) (v : State) : Prop where
  joined : v.wheelList ((u.head + 1) % 64) = u.wheelList ((u.head + 1) % 64) ++ ts
  others : ∀ x, x ≠ (u.head + 1) % 64 → v.wheelList x = u.wheelList x
  entries : ∀ t e, u.entry t = some e →
    v.entry t = some (if t ∈ ts then e.returned ((u.head + 1) % 64) else e)
  slots : ∀ i, (v.slot i).gen = (u.slot i).gen ∧ (v.slot i).last = (u.slot i).last ∧
    ((u.slot i).entry = none → (v.slot i).entry = none)
  frame : v = { u with wheel := v.wheel, slots := v.slots }

/-- R105: an entry on no wheel slot is returned to the slot after the head, no visit being touched. -/
theorem State.returnQueued_eq {u : State} {t : Tag} {e : Entry} (he : u.entry t = some e)
    (off : e.wheel = none) :
    u.returnQueued t =
      (u.setWheelList ((u.head + 1) % 64) (u.wheelList ((u.head + 1) % 64) ++ [t])).setEntry t.slot
        (e.returned ((u.head + 1) % 64)) := by
  simp only [State.returnQueued, he, State.schedule, delayOf_one, State.leaveSlot_offWheel off]
  rfl

/-- R132: the return of one entry. -/
theorem State.Returns.one {u : State} {t : Tag} {e : Entry} (he : u.entry t = some e)
    (off : e.wheel = none) : u.Returns [t] (u.returnQueued t) := by
  rw [State.returnQueued_eq he off]
  obtain ⟨w, hw⟩ : ∃ w, w = (u.head + 1) % 64 := ⟨_, rfl⟩
  have listed : (u.setWheelList w (u.wheelList w ++ [t])).entry t = some e := he
  constructor
  case joined => rw [← hw]; exact State.wheelList_setWheelList ..
  case others => rw [← hw]; exact fun x hx => State.wheelList_setWheelList_ne u _ hx
  case entries =>
    rw [← hw]
    intro t' e' he'
    by_cases ht : t' = t
    · subst ht
      cases he.symm.trans he'
      rw [if_pos (List.mem_singleton_self t')]
      exact State.entry_setEntry listed _
    · rw [if_neg (mt List.mem_singleton.1 ht), State.entry_setEntry_ne listed _ ht]
      exact he'
  case slots =>
    rw [← hw]
    intro i
    by_cases hi : i = t.slot
    · rw [hi, State.slot_setEntry]
      exact ⟨rfl, rfl, fun free => absurd ((State.entry_eq_some.1 he).2.symm.trans free) nofun⟩
    · rw [State.slot_setEntry_ne _ _ hi]
      exact ⟨rfl, rfl, id⟩
  case frame => rfl

theorem State.Returns.head {u v : State} {ts : List Tag} (h : u.Returns ts v) : v.head = u.head := by
  rw [h.frame]

/-- R132: returns of different tags, one after the other. -/
theorem State.Returns.trans {u v x : State} {ts ts' : List Tag} (h : u.Returns ts v) (h' : v.Returns ts' x)
    (apart : List.Disjoint ts ts') : u.Returns (ts ++ ts') x := by
  have head := h.head
  constructor
  case joined => rw [← head, h'.joined, head, h.joined, List.append_assoc]
  case others => exact fun y hy => (h'.others y (head ▸ hy)).trans (h.others y hy)
  case entries =>
    intro t e he
    rw [h'.entries t _ (h.entries t e he), head]
    by_cases ht : t ∈ ts
    · rw [if_neg (apart ht), if_pos ht, if_pos (List.mem_append_left _ ht)]
    · rw [if_neg ht]
      exact congrArg some (if_congr (by simp only [List.mem_append, ht, false_or]) rfl rfl)
  case slots =>
    intro i
    obtain ⟨gen, last, free⟩ := h.slots i
    obtain ⟨gen', last', free'⟩ := h'.slots i
    exact ⟨gen'.trans gen, last'.trans last, free' ∘ free⟩
  case frame =>
    have hx := h'.frame
    rw [h.frame] at hx
    exact hx

/-- R132: the entries of a queue are returned from its head to its tail. -/
theorem State.Returns.foldl {ts : List Tag} (hnd : ts.Nodup) {u : State}
    (off : ∀ t ∈ ts, ∃ e, u.entry t = some e ∧ e.wheel = none) :
    u.Returns ts (ts.foldl State.returnQueued u) := by
  induction ts generalizing u with
  | nil => exact ⟨(List.append_nil _).symm, fun _ _ => rfl, fun _ _ he => he, fun _ => ⟨rfl, rfl, id⟩, rfl⟩
  | cons t rest ih =>
    obtain ⟨hnot, hrest⟩ := List.nodup_cons.1 hnd
    obtain ⟨⟨e, he, hw⟩, hoff⟩ := List.forall_mem_cons.1 off
    have first := State.Returns.one he hw
    refine first.trans (ih hrest fun t' ht' => ?_) (List.singleton_disjoint.2 hnot)
    obtain ⟨e', he', hw'⟩ := hoff t' ht'
    have other : t' ∉ [t] := fun h => hnot (List.mem_singleton.1 h ▸ ht')
    exact ⟨e', by rw [first.entries t' e' he', if_neg other], hw'⟩

/-- R132: the return of a channel's queue empties its bands and leaves the other channel. -/
theorem State.returnQueue_returns {s : State} {c : Chan} (hnd : (s.chan c).queue.Nodup)
    (off : ∀ t ∈ (s.chan c).queue, ∃ e, s.entry t = some e ∧ e.wheel = none) :
    (s.setChan c { s.chan c with urgent := [], normal := [] }).Returns (s.chan c).queue (s.returnQueue c) :=
  State.Returns.foldl hnd off

/-- R105, R132: CHANNEL CLOSE. -/
theorem channelClose_taken {s : State} {c : Chan} {b : Byte} (idle : s.op = none)
    (hb : b = chanByte c) (harr : s.lastArrives .channelClose [] b noDesig) :
    exec (.channelClose (.last b)) s =
      .next (((s.lastTaken.returnQueue c).setChanState c .closed).answer .ok []) :=
  congrArg Host.Outcome.next (portLast_onChan harr idle rfl hb)

/-- Settles O49: four commands by the channel of their argument, and CHANNEL CLOSE by the return of its
queue. -/
theorem channelCommands : Obligations.ChannelCommands := by
  refine ⟨fun s b idle => ⟨fun c i row hc harr hb => channelCommand_range idle row hc harr hb, ?_⟩, ?_⟩
  · intro c hb ch
    refine ⟨fun harr => ?_, fun harr => ?_, fun harr => ?_, fun harr => ?_⟩
    · exact congrArg Host.Outcome.next (portLast_onChan harr idle rfl hb)
    · refine congrArg Host.Outcome.next ((portLast_onChan harr idle rfl hb).trans ?_)
      exact if_congr .rfl rfl rfl
    · exact congrArg Host.Outcome.next (portLast_onChan harr idle rfl hb)
    · exact congrArg Host.Outcome.next (portLast_onChan harr idle rfl hb)
  · intro s c b idle hb harr ch queue w hnd off
    have returned := State.returnQueue_returns (s := s.lastTaken) (c := c) hnd off
    have bands : (s.lastTaken.returnQueue c).chan c = { ch with urgent := [], normal := [] } :=
      returnQueue_chan s.lastTaken c
    have chans : (s.lastTaken.returnQueue c).chans =
        s.chans.put c { ch with urgent := [], normal := [] } := by rw [returned.frame]; rfl
    refine ⟨_, channelClose_taken idle hb harr, ?_, fun k hk => ?_, returned.joined, returned.others,
      returned.entries, returned.slots, ?_⟩
    · refine (State.chan_setChan ..).trans ?_
      rw [bands]
    · refine (State.chan_setChan_ne _ _ hk).trans ?_
      rw [State.chan, chans]
      exact Duo.get_put_ne _ _ hk
    · rw [returned.frame]
      rfl

end Sys2Proof.Machine
end

/-! ## The FAILED report and stray reports (R129, R130, R170) -/

section

namespace Sys2Proof.Machine

theorem State.setChan_setChan (s : State) (c : Chan) (v w : Channel) :
    (s.setChan c v).setChan c w = s.setChan c w := by
  cases c <;> rfl

section
variable {s : State} {c : Chan} {t : Tag}

/-- R130: a tag that is not listed, or names no entry ON_AIR on the channel, is reported of no entry. -/
theorem State.reported_of_stray
    (stray : t ∈ (s.chan c).outstanding → ∀ e, s.entry t = some e → e.state ≠ .onAir ∨ e.chan ≠ c) :
    s.reported c t = none := by
  cases hr : s.reported c t with
  | none => rfl
  | some e =>
    obtain ⟨he, onAir, hc⟩ := State.reported_eq_some hr
    have listed : t ∈ (s.chan c).outstanding := by
      by_contra absent
      rw [State.reported, if_neg absent] at hr
      cases hr
    exact ((stray listed e he).elim (· onAir) (· hc)).elim

/-- R130: a stray SENT or FAILED takes its tag off the list and is counted. -/
theorem State.unlist_countStray (s : State) (c : Chan) (t : Tag) :
    (s.unlist c t).countStray c =
      s.setChan c { s.chan c with
        outstanding := (s.chan c).outstanding.erase t, stray := min 65535 ((s.chan c).stray + 1) } := by
  rw [State.countStray, State.unlist, State.setChan_setChan, State.chan_setChan]
  rfl

/-- R127, R129: what becomes of an entry at a FAILED, first case first. -/
theorem State.failedLive_eq {e : Entry} :
    s.failedLive t e =
      if e.cancelPending = true then s.endEntry .cancelled t
      else if e.expirePending = true ∨ e.deadline ≤ s.time then s.endEntry .expired t
      else s.schedule t e .waiting 1 := by
  simp only [State.failedLive, State.expiresAtReport, Bool.or_eq_true, State.deadlineReached_iff]

end

section
variable {s : State} (clear : s.op ≠ some .autoclear) (c : Chan) (b g : Byte)
include clear

theorem exec_sent : exec (.sent c b g) s = .next (s.reportSent c { slot := b.toNat, gen := g.toNat }) :=
  congrArg Host.Outcome.next (if_neg clear)

theorem exec_failed : exec (.failed c b g) s = .next (s.reportFailed c { slot := b.toNat, gen := g.toNat }) :=
  congrArg Host.Outcome.next (if_neg clear)

/-- R170: a report of another kind is counted. -/
theorem exec_unknownReportKind {kind : Byte} (notSent : kind ≠ 0x01) (notFailed : kind ≠ 0x02) :
    exec (.unknownReportKind c kind b g) s = .next (s.countStray c) :=
  by
  have counted : ¬ (kind = 0x01 || kind = 0x02 || s.op = some .autoclear) = true := by
    simp only [Bool.or_eq_true, decide_eq_true_eq, not_or]
    exact ⟨⟨notSent, notFailed⟩, clear⟩
  exact congrArg Host.Outcome.next (if_neg counted)

end

/-- Settles O48, by whether the report reaches an entry. -/
theorem failedAndStrayReports : Obligations.FailedAndStrayReports := by
  refine ⟨?_, fun s c b g clear => ⟨fun kind => exec_unknownReportKind clear c b g, fun stray => ?_⟩⟩
  · intro s c b g e clear t u listed he onAir hc
    have reported : s.reported c t = some e := State.reported_of_onAir listed he onAir hc
    have failed : s.reportFailed c t = u.failedLive t e := by
      rw [State.reportFailed, reported]
      rfl
    rw [exec_failed clear, failed, State.failedLive_eq]
    rfl
  · have reported : s.reported c { slot := b.toNat, gen := g.toNat } = none := State.reported_of_stray stray
    constructor
    · rw [exec_sent clear, State.reportSent, reported]
      exact congrArg Host.Outcome.next (s.unlist_countStray c _)
    · rw [exec_failed clear, State.reportFailed, reported]
      exact congrArg Host.Outcome.next ((s.raise .airFault).unlist_countStray c _)

end Sys2Proof.Machine
end

/-! ## The pull (R124 to R127, R170) -/

section

namespace Sys2Proof.Machine

/-! ### The marks on the entries ON_AIR (R127) -/

/-- R127: the entry with expire-pending set where it is due, and as it was otherwise. -/
def Entry.marked (e : Entry) (due : Bool) : Entry := { e with expirePending := e.expirePending || due }

theorem Entry.marked_false (e : Entry) : e.marked false = e := by
  rw [Entry.marked, Bool.or_false]

theorem Entry.marked_true (e : Entry) : e.marked true = { e with expirePending := true } := by
  rw [Entry.marked, Bool.or_true]

theorem Entry.marked_marked (e : Entry) (p q : Bool) : (e.marked p).marked q = e.marked (p || q) := by
  simp only [Entry.marked, Bool.or_assoc]

/-- R125, R127: `u` is `s` with the entries of the tags `ts` marked that are ON_AIR on `c` past their
deadline. -/
structure State.Marks (c : Chan) (ts : List Tag) (s u : State) : Prop where
  entries : ∀ t e, s.entry t = some e → u.entry t = some (e.marked (decide (t ∈ ts) && s.overdueOnAir c e))
  slots : ∀ i, (u.slot i).gen = (s.slot i).gen ∧ (u.slot i).last = (s.slot i).last ∧
    ((s.slot i).entry = none → (u.slot i).entry = none)
  frame : u = { s with slots := u.slots }

section
variable {s u v : State} {c : Chan}

/-- R85: a live entry rewritten leaves every slot's generation and last ending, and the free slots free. -/
theorem State.slots_setEntry {t : Tag} {e : Entry} (he : s.entry t = some e) (e' : Entry) (i : Nat) :
    ((s.setEntry t.slot e').slot i).gen = (s.slot i).gen ∧
      ((s.setEntry t.slot e').slot i).last = (s.slot i).last ∧
      ((s.slot i).entry = none → ((s.setEntry t.slot e').slot i).entry = none) := by
  by_cases hi : i = t.slot
  · rw [hi, State.slot_setEntry]
    exact ⟨rfl, rfl, fun free => absurd ((State.entry_eq_some.1 he).2.symm.trans free) nofun⟩
  · rw [State.slot_setEntry_ne _ _ hi]
    exact ⟨rfl, rfl, id⟩

theorem State.Marks.nil (s : State) (c : Chan) : State.Marks c [] s s where
  entries _ e he := by simpa [e.marked_false] using he
  slots _ := ⟨rfl, rfl, id⟩
  frame := rfl

/-- R127: one listed tag is examined. -/
theorem State.Marks.one (s : State) (c : Chan) (t : Tag) : State.Marks c [t] s (s.markExpired c t) := by
  have same (h : ∀ e, s.entry t = some e → s.overdueOnAir c e = false) : State.Marks c [t] s s :=
    { State.Marks.nil s c with
      entries := fun t' e he => by
        have unmarked : (decide (t' ∈ [t]) && s.overdueOnAir c e) = false := by
          by_cases ht : t' = t
          · rw [h e (ht ▸ he), Bool.and_false]
          · simp [ht]
        rw [unmarked, e.marked_false, he] }
  unfold State.markExpired
  cases he : s.entry t with
  | none => exact same fun e h => absurd (he.symm.trans h) nofun
  | some e =>
    dsimp only
    split
    · next due =>
      constructor
      case entries =>
        intro t' e' he'
        by_cases ht : t' = t
        · subst ht
          cases he.symm.trans he'
          rw [State.entry_setEntry he, due, decide_eq_true (List.mem_singleton_self t'), Bool.and_true,
            e.marked_true]
        · rw [State.entry_setEntry_ne he _ ht, he', decide_eq_false (mt List.mem_singleton.1 ht),
            Bool.false_and, e'.marked_false]
      case slots => exact State.slots_setEntry he _
      case frame => rfl
    · next early =>
      refine same fun e' he' => ?_
      cases he.symm.trans he'
      exact Bool.eq_false_iff.2 early

/-- R127: a mark changes neither the office time nor what makes an entry overdue. -/
theorem State.Marks.overdueOnAir {ts : List Tag} (h : State.Marks c ts s u) (e : Entry) (due : Bool) :
    u.overdueOnAir c (e.marked due) = s.overdueOnAir c e := by
  rw [h.frame]
  rfl

theorem State.Marks.trans {ts ts' : List Tag} (h : State.Marks c ts s u) (h' : State.Marks c ts' u v) :
    State.Marks c (ts ++ ts') s v where
  entries t e he := by
    have either : decide (t ∈ ts ++ ts') = (decide (t ∈ ts) || decide (t ∈ ts')) := by simp
    rw [h'.entries t _ (h.entries t e he), Entry.marked_marked, h.overdueOnAir, either,
      Bool.and_or_distrib_right]
  slots i := by
    obtain ⟨gen, last, free⟩ := h.slots i
    obtain ⟨gen', last', free'⟩ := h'.slots i
    exact ⟨gen'.trans gen, last'.trans last, free' ∘ free⟩
  frame := by
    have hv := h'.frame
    rw [h.frame] at hv
    exact hv

/-- R125: the tags of a list are examined one after the other. -/
theorem State.Marks.foldl (s : State) (c : Chan) (ts : List Tag) :
    State.Marks c ts s (ts.foldl (State.markExpired c) s) := by
  induction ts generalizing s with
  | nil => exact State.Marks.nil s c
  | cons t rest ih => exact (State.Marks.one s c t).trans (ih (s.markExpired c t))

end

section
variable (s : State) (c : Chan)

theorem State.markOutstanding_marks : State.Marks c (s.chan c).outstanding s (s.markOutstanding c) :=
  State.Marks.foldl s c _

@[simp] theorem State.markOutstanding_chan (k : Chan) : (s.markOutstanding c).chan k = s.chan k := by
  rw [(s.markOutstanding_marks c).frame]; rfl
@[simp] theorem State.markOutstanding_port : (s.markOutstanding c).port = s.port := by
  rw [(s.markOutstanding_marks c).frame]
@[simp] theorem State.markOutstanding_time : (s.markOutstanding c).time = s.time := by
  rw [(s.markOutstanding_marks c).frame]

theorem PageSlot.eq_of_fields {p q : PageSlot} (gen : p.gen = q.gen) (last : p.last = q.last)
    (entry : p.entry = q.entry) : p = q := by
  cases p; cases q; cases gen; cases last; cases entry; rfl

/-- R127: an entry that is not ON_AIR is left as it is, with its slot. -/
theorem State.markOutstanding_not_onAir {t : Tag} {e : Entry} (he : s.entry t = some e)
    (off : e.state ≠ .onAir) :
    (s.markOutstanding c).entry t = some e ∧ (s.markOutstanding c).slot t.slot = s.slot t.slot := by
  have marks := s.markOutstanding_marks c
  have unmarked : s.overdueOnAir c e = false := by simp [State.overdueOnAir, off]
  have kept : (s.markOutstanding c).entry t = some e := by
    rw [marks.entries t e he, unmarked, Bool.and_false, e.marked_false]
  obtain ⟨gen, last, -⟩ := marks.slots t.slot
  have entry := (State.entry_eq_some.1 kept).2.trans (State.entry_eq_some.1 he).2.symm
  exact ⟨kept, PageSlot.eq_of_fields gen last entry⟩

end

/-! ### The queue without the tags that have left it (R123, R125) -/

/-- R123: the channel with the tags `ts` taken off both bands. -/
def Channel.without (ch : Channel) (ts : List Tag) : Channel :=
  { ch with urgent := ch.urgent.filter (· ∉ ts), normal := ch.normal.filter (· ∉ ts) }

theorem Channel.queue_without (ch : Channel) (ts : List Tag) :
    (ch.without ts).queue = ch.queue.filter (· ∉ ts) := (List.filter_append ..).symm

theorem Channel.without_nil (ch : Channel) : ch.without [] = ch := by
  simp [Channel.without]

theorem Channel.without_append (ch : Channel) (ts ts' : List Tag) :
    (ch.without ts).without ts' = ch.without (ts ++ ts') := by
  simp [Channel.without, List.filter_filter, Bool.and_comm]

theorem Channel.without_queue (ch : Channel) : ch.without ch.queue = { ch with urgent := [], normal := [] } := by
  have urgent : ch.urgent.filter (· ∉ ch.queue) = [] :=
    List.filter_eq_nil_iff.2 fun t ht => by simp [Channel.queue, ht]
  have normal : ch.normal.filter (· ∉ ch.queue) = [] :=
    List.filter_eq_nil_iff.2 fun t ht => by simp [Channel.queue, ht]
  rw [Channel.without, urgent, normal]

/-- R125: the queue without its heads is what stood behind them. -/
theorem Channel.queue_without_heads {ch : Channel} {heads rest : List Tag}
    (hq : ch.queue = heads ++ rest) (hnd : ch.queue.Nodup) : (ch.without heads).queue = rest := by
  rw [hq, List.nodup_append'] at hnd
  obtain ⟨-, -, apart⟩ := hnd
  have gone : heads.filter (· ∉ heads) = [] := by simp
  have kept : rest.filter (· ∉ heads) = rest :=
    List.filter_eq_self.2 fun t ht => decide_eq_true fun hh => apart hh ht
  rw [Channel.queue_without, hq, List.filter_append, gone, kept, List.nil_append]

/-- R123: a tag that stands once in the queue leaves it. -/
theorem State.chan_leaveBand {s : State} {c : Chan} (hnd : (s.chan c).queue.Nodup) (t : Tag) :
    (s.leaveBand t c).chan c = (s.chan c).without [t] := by
  obtain ⟨hu, hn, -⟩ := List.nodup_append'.1 hnd
  rw [State.leaveBand, State.chan_setChan, hu.erase_eq_filter, hn.erase_eq_filter]
  simp only [Channel.without, List.mem_singleton, decide_not]
  rfl

/-- R91: an ending leaves a channel as it is, or takes its tag off the bands. -/
theorem State.chan_endEntry_cases (s : State) (k : Ending) (t : Tag) (c : Chan) :
    (s.endEntry k t).chan c = s.chan c ∨ (s.endEntry k t).chan c = (s.leaveBand t c).chan c := by
  cases he : s.entry t with
  | none => rw [State.endEntry_of_none k he]; exact .inl rfl
  | some e =>
    obtain ⟨-, hchans, -⟩ := s.leavePlace_places t e
    rw [State.chan, State.endEntry_chans k he, hchans]
    split
    · by_cases hc : c = e.chan
      · exact .inr (by rw [hc, State.chan])
      · exact .inl (State.chan_setChan_ne s _ hc)
    · exact .inl rfl

/-- R125: a queued entry that a pull ends leaves its channel's bands, whichever place its ending took it
from. -/
theorem State.chan_expireQueued {s : State} {c : Chan} (hnd : (s.chan c).queue.Nodup) (t : Tag) :
    (s.expireQueued c t).chan c = (s.chan c).without [t] := by
  rcases s.chan_endEntry_cases .expired t c with same | left
  · rw [State.expireQueued, State.chan_leaveBand (by rwa [same]), same]
  · rw [State.chan_leaveBand hnd] at left
    have hnd' : ((s.chan c).without [t]).queue.Nodup := by
      rw [Channel.queue_without]; exact hnd.filter _
    rw [State.expireQueued, State.chan_leaveBand (by rwa [left]), left, Channel.without_append]
    simp [Channel.without]

/-- R125: the entries that a pull ends leave the queue. -/
theorem State.chan_foldl_expireQueued {s : State} {c : Chan} (hnd : (s.chan c).queue.Nodup) (ts : List Tag) :
    (ts.foldl (State.expireQueued c) s).chan c = (s.chan c).without ts := by
  induction ts generalizing s with
  | nil => exact (Channel.without_nil _).symm
  | cons t rest ih =>
    have first := State.chan_expireQueued hnd t
    rw [List.foldl_cons, ih (by rw [first, Channel.queue_without]; exact hnd.filter _), first,
      Channel.without_append]
    rfl

/-! ### The entries that a pull leaves -/

/-- R91: an ending leaves the slots of the other live entries. -/
theorem State.slot_endEntry_of_live {s : State} {t t' : Tag} {e : Entry} (k : Ending)
    (he : s.entry t = some e) (hne : t' ≠ t) : (s.endEntry k t').slot t.slot = s.slot t.slot := by
  cases he' : s.entry t' with
  | none => rw [State.endEntry_of_none k he']
  | some e' =>
    refine State.slot_endEntry_ne k he' fun hs => hne ?_
    have hg : t'.gen = t.gen := by
      rw [← (State.entry_eq_some.1 he).1, ← (State.entry_eq_some.1 he').1, hs]
    cases t; cases t'; cases hs; cases hg; rfl

theorem State.slot_foldl_expireQueued {s : State} {c : Chan} {t : Tag} {e : Entry}
    (he : s.entry t = some e) {ts : List Tag} (ht : t ∉ ts) :
    (ts.foldl (State.expireQueued c) s).slot t.slot = s.slot t.slot := by
  induction ts generalizing s with
  | nil => rfl
  | cons t' rest ih =>
    obtain ⟨hne, hrest⟩ := not_or.1 (mt List.mem_cons.2 ht)
    have slot : (s.expireQueued c t').slot t.slot = s.slot t.slot :=
      State.slot_endEntry_of_live .expired he (Ne.symm hne)
    have kept : (s.expireQueued c t').entry t = some e := by
      rw [State.entry_eq_some, slot]; exact State.entry_eq_some.1 he
    rw [List.foldl_cons, ih kept hrest, slot]

/-! ### The answers -/

/-- R125: a queued tag whose entry is past its deadline is one that a pull ends. -/
theorem State.queuedExpired_iff {s : State} {t : Tag} {e : Entry} (he : s.entry t = some e) :
    s.queuedExpired t = true ↔ e.deadline ≤ s.time := by
  simp only [State.queuedExpired, he, State.deadlineReached_iff]

theorem State.queuedExpired_markOutstanding {s : State} {t : Tag} {e : Entry} (c : Chan)
    (he : s.entry t = some e) : (s.markOutstanding c).queuedExpired t = true ↔ e.deadline ≤ s.time := by
  rw [State.queuedExpired_iff ((s.markOutstanding_marks c).entries t e he), State.markOutstanding_time]
  rfl

section
variable {s : State} {c : Chan}

/-- R125: an empty queue is answered IDLE from an OPEN channel. -/
theorem State.answerEmpty_opened (opened : (s.chan c).state = .opened) :
    s.answerEmpty c = s.setEnc c [0x03] := by
  simp only [State.answerEmpty, opened]
  rfl

/-- R125, R126: an empty queue closes a DRAINING channel, which raises DRAINED. -/
theorem State.answerEmpty_draining (draining : (s.chan c).state = .draining) :
    s.answerEmpty c =
      { (s.setChan c { s.chan c with state := .closed, drained := true }).setEnc c [0x04] with
        port := { s.port with causes := s.port.causes ||| 0x10 } } := by
  simp only [State.answerEmpty, draining]
  rfl

variable (clear : s.op ≠ some .autoclear)
include clear

/-- R125: outside the autoclear a pull marks, and then answers. -/
theorem exec_pull : exec (.pull c false) s = (s.markOutstanding c).answerPull c :=
  if_neg clear

/-- R125: a pull of a CLOSED channel. -/
theorem exec_pull_closed (closed : (s.chan c).state = .closed) :
    exec (.pull c false) s = .next ((s.markOutstanding c).setEnc c [0x01]) := by
  rw [exec_pull clear, State.answerPull, State.markOutstanding_chan, if_pos closed]
  rfl

section
variable (opened : (s.chan c).state ≠ .closed)
include opened

/-- R125: a pull with the outstanding list full. -/
theorem exec_pull_full (full : (s.chan c).outstanding.length = 4) :
    exec (.pull c false) s = .next ((s.markOutstanding c).setEnc c [0x02]) := by
  rw [exec_pull clear, State.answerPull, State.markOutstanding_chan, if_neg opened, if_pos full.ge]
  rfl

/-- R125: a pull with room on the outstanding list examines the queue. -/
theorem exec_pull_queue (room : (s.chan c).outstanding.length < 4) :
    exec (.pull c false) s = (s.markOutstanding c).pullQueue c := by
  rw [exec_pull clear, State.answerPull, State.markOutstanding_chan, if_neg opened,
    if_neg (Nat.not_le.2 room)]

end

omit clear in
/-- R125: the entries past their deadline at the head of the queue end, up to the first that is not. -/
theorem State.expireHeads_markOutstanding {heads rest : List Tag} (hq : (s.chan c).queue = heads ++ rest)
    (late : ∀ d ∈ heads, ∃ f, s.entry d = some f ∧ f.state = .queued ∧ f.deadline ≤ s.time)
    (next : ∀ t ∈ rest.head?, ∃ e, s.entry t = some e ∧ s.time < e.deadline) :
    (s.markOutstanding c).expireHeads c = heads.foldl (State.expireQueued c) (s.markOutstanding c) := by
  have ended : ∀ d ∈ heads, (s.markOutstanding c).queuedExpired d = true := fun d hd => by
    obtain ⟨f, hf, -, hl⟩ := late d hd
    exact (State.queuedExpired_markOutstanding c hf).2 hl
  have stops : rest.takeWhile (s.markOutstanding c).queuedExpired = [] := by
    cases rest with
    | nil => rfl
    | cons t more =>
      obtain ⟨e, he, early⟩ := next t rfl
      exact List.takeWhile_cons_of_neg
        (mt (State.queuedExpired_markOutstanding c he).1 (Nat.not_le.2 early))
  rw [State.expireHeads, State.markOutstanding_chan, hq, List.takeWhile_append_of_pos ended, stops,
    List.append_nil]

end

/-! ### A queue that the pull empties -/

section
variable {s : State} {c : Chan} (hnd : (s.chan c).queue.Nodup)
include hnd

/-- R125: the channel after the endings of a pull. -/
theorem State.chan_expired_markOutstanding (heads : List Tag) :
    (heads.foldl (State.expireQueued c) (s.markOutstanding c)).chan c = (s.chan c).without heads := by
  have marked := s.markOutstanding_chan c c
  rw [State.chan_foldl_expireQueued (by rwa [marked]), marked]

theorem State.chan_queue_expired :
    ((s.chan c).queue.foldl (State.expireQueued c) (s.markOutstanding c)).chan c =
      { s.chan c with urgent := [], normal := [] } := by
  rw [State.chan_expired_markOutstanding hnd, Channel.without_queue]

/-- R125: a pull that ends its whole queue answers as to an empty queue. -/
theorem exec_pull_empties (clear : s.op ≠ some .autoclear) (opened : (s.chan c).state ≠ .closed)
    (room : (s.chan c).outstanding.length < 4)
    (late : ∀ d ∈ (s.chan c).queue, ∃ f, s.entry d = some f ∧ f.state = .queued ∧ f.deadline ≤ s.time) :
    exec (.pull c false) s =
      .next (((s.chan c).queue.foldl (State.expireQueued c) (s.markOutstanding c)).answerEmpty c) := by
  have heads := State.expireHeads_markOutstanding (List.append_nil _).symm late nofun
  have empty : Channel.queue { s.chan c with urgent := [], normal := [] } = [] := rfl
  rw [exec_pull_queue clear opened room]
  simp only [State.pullQueue, heads, State.chan_queue_expired hnd, empty]

end

/-- Settles O45: the marks tag by tag, and the answers by the state of the channel and of its queue. -/
theorem pullsWithoutAPage : Obligations.PullsWithoutAPage := by
  refine ⟨fun s c => ?_, fun s c clear => ?_, fun s c clear => ?_⟩
  · have marks := s.markOutstanding_marks c
    refine ⟨fun t e he => ?_, marks.slots, marks.frame⟩
    rw [marks.entries t e he, Entry.marked]
    simp [State.overdueOnAir, State.deadlineReached, Bool.and_assoc]
  · intro u ch
    refine ⟨rfl, exec_pull_closed clear, exec_pull_full clear, fun room hu hn => ?_⟩
    have queue : (s.chan c).queue = [] := List.append_eq_nil_iff.2 ⟨hu, hn⟩
    have answered (opened : ch.state ≠ .closed) : exec (.pull c false) s = .next (u.answerEmpty c) := by
      have pulled := exec_pull_empties (by rw [queue]; exact List.nodup_nil) clear opened room
        (by rw [queue]; exact nofun)
      rw [queue] at pulled
      exact pulled
    have chan : u.chan c = ch := s.markOutstanding_chan c c
    refine ⟨fun opened => ?_, fun draining => ?_⟩
    · rw [answered (by rw [opened]; nofun), State.answerEmpty_opened (by rwa [chan])]
    · rw [answered (by rw [draining]; nofun), State.answerEmpty_draining (by rwa [chan]), chan,
        s.markOutstanding_port c]
  · intro u ch queue x room hnd late
    have pulled (opened : ch.state ≠ .closed) : exec (.pull c false) s = .next (x.answerEmpty c) :=
      exec_pull_empties hnd clear opened room late
    have chan : x.chan c = { ch with urgent := [], normal := [] } := State.chan_queue_expired hnd
    have state : (x.chan c).state = ch.state := by rw [chan]
    refine ⟨by rw [chan], by rw [chan], fun opened => ?_, fun draining => ?_⟩
    · rw [pulled (by rw [opened]; nofun), State.answerEmpty_opened (state.trans opened)]
    · rw [pulled (by rw [draining]; nofun), State.answerEmpty_draining (state.trans draining)]

/-! ### A page served -/

/-- R124, R125: the entry served leaves its band for the tail of the outstanding list, and its slot holds it
ON_AIR. -/
theorem State.putOnAir_eq (s : State) (c : Chan) (t : Tag) (e : Entry) :
    s.putOnAir c t e =
      (s.setChan c { s.chan c with
          urgent := (s.chan c).urgent.erase t, normal := (s.chan c).normal.erase t
          outstanding := (s.chan c).outstanding ++ [t] }).setSlot t.slot
        { s.slot t.slot with entry := some { e with state := .onAir } } := by
  simp only [State.putOnAir, State.leaveBand, State.setChan_setChan, State.chan_setChan]
  rfl

/-- R125, R170: the descriptor of an entry with its attempt `a`. -/
theorem pageBytes_eq {e : Entry} {a : Attempt} (ha : e.attempt = some a) (t : Tag) (cs : List Byte) :
    pageBytes t e cs =
      [0x00, BitVec.ofNat 8 t.slot, BitVec.ofNat 8 t.gen] ++ beBytes 3 e.addr
        ++ [BitVec.ofNat 8 e.serial, kindByte e.kind] ++ beBytes 2 a.mask.toNat
        ++ [BitVec.ofNat 8 e.len] ++ cs := by
  rw [pageBytes, ha]
  rfl

/-- Settles O46: the overdue heads end and leave the bands, and the entry that stands behind them is served
with its slot as the marks and the endings have left it. -/
theorem pullsServeAPage : Obligations.PullsServeAPage := by
  intro s c dead t more e a cs clear u x opened room hq hnd late he queued early ha htext
  have fresh : t ∉ dead := by
    rw [hq] at hnd
    exact fun ht => (List.disjoint_of_nodup_append hnd) ht List.mem_cons_self
  obtain ⟨marked, slot⟩ := s.markOutstanding_not_onAir c he (by rw [queued]; nofun)
  have heads : u.expireHeads c = x :=
    State.expireHeads_markOutstanding (s := s) hq late fun t' ht' => by
      cases ht'
      exact ⟨e, he, early⟩
  have chan : x.chan c = (s.chan c).without dead := State.chan_expired_markOutstanding hnd dead
  have behind : (x.chan c).queue = t :: more := by
    rw [chan]
    exact Channel.queue_without_heads hq hnd
  have slot' : x.slot t.slot = s.slot t.slot := (State.slot_foldl_expireQueued marked fresh).trans slot
  have he' : x.entry t = some e := by
    rw [State.entry_eq_some, slot']
    exact State.entry_eq_some.1 he
  have outstanding : (x.chan c).outstanding = (s.chan c).outstanding := by rw [chan]; rfl
  have pulled : exec (.pull c false) s = x.servePage c t e := by
    rw [exec_pull_queue clear opened room]
    simp only [State.pullQueue, heads, behind, he', u]
  rw [pulled, State.servePage, htext]
  dsimp only
  rw [State.putOnAir_eq, pageBytes_eq ha, slot', outstanding]

end Sys2Proof.Machine
end

/-! ## The Answer-Back Unit: frames that arrive and the service begun (R135 to R137, R171) -/

section

namespace Sys2Proof.Machine

/-! ### The bytes of a frame (R135, R171) -/

/-- R171: the frame in five bytes, by their values. -/
theorem frameOf_five (k b1 b2 b3 b : Byte) :
    frameOf [k, b1, b2, b3, b] =
      { kind := k, addr := 65536 * (b1.toNat % 64) + 256 * b2.toNat + b3.toNat
        serial := b.toNat % 64 } := by
  have addr : addrOf b1 b2 b3 = 65536 * (b1.toNat % 64) + 256 * b2.toNat + b3.toNat :=
    congrArg Header.addr (headerOf_five 0 b1 b2 b3 0)
  have serial : (b &&& 0x3F).toNat = b.toNat % 64 := Nat.and_two_pow_sub_one_eq_mod b.toNat 6
  rw [← addr, ← serial]
  rfl

section
variable {s : State} {n : LineNo} (b : Byte)

/-- R171: with no frame begun a marked byte begins one, and another is ignored. -/
theorem exec_answerBackFrame_unbegun (h : (s.abSlot n).rx = []) (marked : Bool) :
    exec (.answerBackFrame n marked b) s =
      .next (if marked then s.setAbSlot n { s.abSlot n with rx := [b] } else s) := by
  cases marked <;> simp [exec, execAnswerBackFrame, h]

/-- R171: with a frame begun an unmarked byte is received at the slot. -/
theorem exec_answerBackFrame_begun (h : (s.abSlot n).rx ≠ []) :
    exec (.answerBackFrame n false b) s =
      .next (s.setAbSlot n ((s.abSlot n).receive b (s.op = some .autoclear))) := by
  obtain ⟨b0, rest, hrx⟩ := List.exists_cons_of_ne_nil h
  simp [exec, execAnswerBackFrame, hrx]

theorem exec_markedByteRestart (h : (s.abSlot n).rx ≠ []) :
    exec (.markedByteRestart n b) s = .next (s.setAbSlot n { s.abSlot n with rx := [b] }) := by
  obtain ⟨b0, rest, hrx⟩ := List.exists_cons_of_ne_nil h
  simp [exec, execMarkedByteRestart, hrx]

end

/-- R171: a byte before the fifth is kept. -/
theorem AbSlot.receive_early {a : AbSlot} (h : a.rx.length < 4) (b : Byte) (clearing : Bool) :
    a.receive b clearing = { a with rx := a.rx ++ [b] } := if_pos h

/-- R135: the fifth byte makes the frame arrive. -/
theorem AbSlot.receive_fifth {a : AbSlot} {k b1 b2 b3 : Byte} (h : a.rx = [k, b1, b2, b3]) (b : Byte) :
    a.receive b false =
      AbSlot.arrive { a with rx := [] }
        { kind := k, addr := 65536 * (b1.toNat % 64) + 256 * b2.toNat + b3.toNat
          serial := b.toNat % 64 } := by
  rw [← frameOf_five k b1 b2 b3 b, AbSlot.receive, h]
  rfl

theorem AbSlot.arrive_empty {a : AbSlot} (h : a.frame = none) (f : AbFrame) :
    a.arrive f = { a with frame := some f } := by
  rw [AbSlot.arrive, h]

theorem AbSlot.arrive_full {a : AbSlot} (h : a.frame ≠ none) (f : AbFrame) :
    a.arrive f = { a with dropped := min 65535 (a.dropped + 1) } := by
  obtain ⟨g, hg⟩ := Option.ne_none_iff_exists'.1 h
  rw [AbSlot.arrive, hg]
  rfl

/-! ### The begin of a service (R136, R137) -/

/-- R136: a service is in progress exactly while a lookup of the unit stands. -/
theorem State.serving_iff {s : State} :
    s.serving = true ↔ ∃ l ∈ s.lookups, ∃ m, l.user = .service m := by
  have ofService (u : LookupUser) :
      (match u with | .service _ => true | _ => false) = true ↔ ∃ m, u = .service m := by
    cases u <;> simp
  rw [State.serving, List.any_eq_true]
  exact exists_congr fun l => and_congr_right fun _ => ofService l.user

/-- R7, R136, R137: the service of the first full slot begins, its lookup held while none is answered. -/
theorem State.beginService_of_full {s : State} {n : LineNo} {k : Nat} (hk : k < 4)
    (hn : n.val = (s.servicePtr.val + 1 + k) % 4) (full : (s.abSlot n).frame ≠ none)
    (first : ∀ (j : Nat) (m : LineNo), j < k → m.val = (s.servicePtr.val + 1 + j) % 4 →
      (s.abSlot m).frame = none) :
    s.beginService =
      { s with
        servicePtr := n
        lookups := s.lookups ++
          [{ user := .service n, held := s.op.isSome || !s.pendingRemovals.isEmpty }] } := by
  have held : (s.op.isSome || !s.pendingRemovals.isEmpty) = !s.lookupsOpen := by
    rw [State.lookupsOpen, Bool.not_and, Option.not_isNone]
  rw [State.beginService, State.nextFull_eq_some hk hn full first, held]
  rfl

theorem State.beginService_of_empty {s : State} (h : ∀ m, (s.abSlot m).frame = none) :
    s.beginService = s := by
  rw [State.beginService, State.nextFull_eq_none h]

theorem exec_answerBackService {s : State} (h : ¬ ∃ l ∈ s.lookups, ∃ m, l.user = .service m) :
    exec .answerBackService s = .next s.beginService :=
  congrArg Host.Outcome.next (if_neg (mt State.serving_iff.1 h))

theorem exec_answerBackService_serving {s : State} (h : ∃ l ∈ s.lookups, ∃ m, l.user = .service m) :
    exec .answerBackService s = .next s :=
  congrArg Host.Outcome.next (if_pos (State.serving_iff.2 h))

/-- Settles O50: the bytes by what the slot has received, and the service begun by the slots that are full. -/
theorem answerBackFramesAndService : Obligations.AnswerBackFramesAndService := by
  refine ⟨fun s n b clear => ?_, fun s n k quiet hk hn full first => ?_, fun s idle => ?_⟩
  · intro a
    have running : decide (s.op = some .autoclear) = false := decide_eq_false clear
    refine ⟨fun hrx => ⟨exec_answerBackFrame_unbegun b hrx true,
        exec_answerBackFrame_unbegun b hrx false⟩,
      exec_markedByteRestart b, fun hrx early => ?_, fun k b1 b2 b3 hrx => ?_⟩
    · rw [exec_answerBackFrame_begun b hrx, AbSlot.receive_early early]
    · have begun : a.rx ≠ [] := by rw [hrx]; nofun
      have fifth := AbSlot.receive_fifth hrx b
      refine ⟨fun empty => ?_, fun full => ?_⟩
      · rw [exec_answerBackFrame_begun b begun, running, fifth,
          AbSlot.arrive_empty (a := { a with rx := [] }) empty]
      · rw [exec_answerBackFrame_begun b begun, running, fifth,
          AbSlot.arrive_full (a := { a with rx := [] }) full]
  · have unserved : ¬ ∃ l ∈ s.lookups, ∃ m, l.user = .service m :=
      fun ⟨l, hl, m, hm⟩ => quiet l hl m hm
    rw [exec_answerBackService unserved, State.beginService_of_full hk hn full first]
  · by_cases serving : ∃ l ∈ s.lookups, ∃ m, l.user = .service m
    · exact exec_answerBackService_serving serving
    · rw [exec_answerBackService serving, State.beginService_of_empty (idle.resolve_left serving)]

end Sys2Proof.Machine
end

/-! ## The service of an answer-back frame: roaming, the match and its effect (R136 to R142) -/

section

namespace Sys2Proof.Machine

theorem Quad.put_put {α : Type} (q : Quad α) (n : LineNo) (v w : α) : (q.put n v).put n w = q.put n w := by
  fin_cases n <;> rfl

theorem State.setAbSlot_self (s : State) (n : LineNo) : s.setAbSlot n (s.abSlot n) = s :=
  congrArg (fun q : Quad AbSlot => { s with ab := q }) (Quad.put_get s.ab n)

/-! ### The roaming update (R138, R139) -/

/-- R21, R139: the mark that a roaming update leaves. -/
theorem roamMark_eq (m : MarkMode) (mark : Bool) : roamMark m mark = (mark || decide (m = .set)) := by
  cases m <;> simp [roamMark]

/-- R139: a record that is heard takes the zone and the time, and in mark mode SET the mark. -/
theorem Subscriber.roam_eq (r : Subscriber) (zone time : Nat) (m : MarkMode) :
    r.roam zone time m =
      { r with zone := zone, lastHeard := some time, mark := r.mark || decide (m = .set) } := by
  rw [Subscriber.roam, roamMark_eq]

/-- R138, R139: the record found takes the zone and the office time, and a receiver of the other channel is
counted at the slot. -/
theorem State.roamingUpdate_eq (s : State) (n : LineNo) (r : Subscriber) :
    s.roamingUpdate n r =
      { s.setAbSlot n { s.abSlot n with
          cross := if s.receiverChan n ≠ r.home then min 65535 ((s.abSlot n).cross + 1)
            else (s.abSlot n).cross } with
        directory := s.directory.map (fun q =>
          if q.addr = r.addr then q.roam (s.receiverZone n) s.time s.markMode else q) } := by
  unfold State.roamingUpdate
  by_cases h : s.receiverChan n = r.home
  · rw [if_pos h, if_neg (not_not_intro h)]
    exact congrArg (fun u : State => u.updateRecord r.addr _) (s.setAbSlot_self n).symm
  · rw [if_neg h, if_pos h]
    rfl

section
variable {s : State} {n : LineNo} {f : AbFrame}

theorem State.roamFor_of_none (h : s.record f.addr = none) : s.roamFor n f = s := by
  simp only [State.roamFor, h]

/-- R142: a frame of an unknown kind makes no update. -/
theorem State.roamFor_of_unknown (h : abKindOf f.kind = .unknown) : s.roamFor n f = s := by
  cases hr : s.record f.addr <;> simp only [State.roamFor, hr, h]

/-- R137: each of the three kinds makes the update of the record that its lookup found. -/
theorem State.roamFor_of_some {r : Subscriber} (hr : s.record f.addr = some r)
    (known : abKindOf f.kind ≠ .unknown) : s.roamFor n f = s.roamingUpdate n r := by
  cases hk : abKindOf f.kind with
  | received | declined | register => simp only [State.roamFor, hr, hk]
  | unknown => exact absurd hk known

end

/-- R139: a roaming update reaches the directory and its answer-back slot only. -/
theorem State.roamFor_frame (s : State) (n : LineNo) (f : AbFrame) :
    s.roamFor n f = { s with ab := (s.roamFor n f).ab, directory := (s.roamFor n f).directory } := by
  unfold State.roamFor
  split <;> simp only [State.roamingUpdate_eq, State.setAbSlot]

/-! ### The match (R140) -/

/-- R140: entry `x` is one that the frame `f` may be the answer to. -/
def Entry.Answers (x : Entry) (f : AbFrame) : Prop :=
  x.addr = f.addr ∧ x.serial = f.serial ∧
    (x.state = .onAir ∨
      (1 ≤ x.attempts ∧ (x.state = .listening ∨ x.state = .waiting ∨ x.state = .queued)))

theorem Entry.answers_iff {x : Entry} {f : AbFrame} :
    x.Answers f ↔ (x.addr = f.addr && x.serial = f.serial && x.matchable) = true := by
  have may : x.matchable = true ↔ (x.state = .onAir ∨
      (1 ≤ x.attempts ∧ (x.state = .listening ∨ x.state = .waiting ∨ x.state = .queued))) := by
    cases h : x.state <;> simp [Entry.matchable, h]
  simp only [Entry.Answers, Bool.and_eq_true, decide_eq_true_eq, and_assoc, may]

section
variable {s : State} {f : AbFrame}

/-- R140: an entry that is matched stands in its slot and is one that the frame may answer. -/
theorem State.matchEntry_eq_some {t : Tag} {x : Entry} (h : s.matchEntry f.addr f.serial = some (t, x)) :
    ∃ j, j < 256 ∧ (s.slot j).entry = some x ∧ x.Answers f ∧
      t = { slot := j, gen := (s.slot j).gen } := by
  obtain ⟨j, hj, found⟩ := List.exists_of_findSome?_eq_some h
  split at found
  · next y hy =>
    split at found
    · next answers =>
      cases found
      exact ⟨j, List.mem_range.1 hj, hy, Entry.answers_iff.2 answers, rfl⟩
    · cases found
  · cases found

/-- R140: with no live entry that the frame may answer there is no match. -/
theorem State.matchEntry_eq_none (h : ∀ x ∈ s.liveEntries, ¬ x.Answers f) :
    s.matchEntry f.addr f.serial = none := by
  cases hm : s.matchEntry f.addr f.serial with
  | none => rfl
  | some p =>
    obtain ⟨j, hj, hx, answers, -⟩ := State.matchEntry_eq_some hm
    exact absurd answers (h p.2 (State.mem_liveEntries.2 ⟨j, hj, hx⟩))

/-- R140: the one entry that the frame may answer is matched. -/
theorem State.matchEntry_of_unique {i : Nat} {e : Entry} (hi : i < 256) (he : (s.slot i).entry = some e)
    (answers : e.Answers f)
    (unique : ∀ j x, j < 256 → (s.slot j).entry = some x → x.Answers f → j = i) :
    s.matchEntry f.addr f.serial = some ({ slot := i, gen := (s.slot i).gen }, e) := by
  cases hm : s.matchEntry f.addr f.serial with
  | none =>
    have missed := List.findSome?_eq_none_iff.1 hm i (List.mem_range.2 hi)
    simp only [he, if_pos (Entry.answers_iff.1 answers)] at missed
    cases missed
  | some p =>
    obtain ⟨t, x⟩ := p
    obtain ⟨j, hj, hx, ha, rfl⟩ := State.matchEntry_eq_some hm
    obtain rfl := unique j x hj hx ha
    rw [he] at hx
    cases hx
    rfl

theorem State.matchEntry_congr {u : State} (h : u.slots = s.slots) (addr serial : Nat) :
    u.matchEntry addr serial = s.matchEntry addr serial := by
  simp only [State.matchEntry, State.slot_congr h]

end

/-! ### What becomes of the frame (R141, R142) -/

section
variable {s : State} {n : LineNo} {f : AbFrame} {found : Bool}

theorem State.disposeFrame_unknown (h : abKindOf f.kind = .unknown) :
    s.disposeFrame n f found = s.countAbStray n := by
  simp only [State.disposeFrame, h]

theorem State.disposeFrame_register (h : abKindOf f.kind = .register) :
    s.disposeFrame n f found = if found then s else s.countAbStray n := by
  simp only [State.disposeFrame, h]

/-- R142: a RECEIVED or DECLINED that matches nothing is counted stray. -/
theorem State.disposeFrame_unmatched (kind : abKindOf f.kind = .received ∨ abKindOf f.kind = .declined)
    (h : s.matchEntry f.addr f.serial = none) : s.disposeFrame n f found = s.countAbStray n := by
  rcases kind with kind | kind <;> simp only [State.disposeFrame, kind, h]

/-- R141 -/
theorem State.disposeFrame_received {t : Tag} {e : Entry} (kind : abKindOf f.kind = .received)
    (h : s.matchEntry f.addr f.serial = some (t, e)) :
    s.disposeFrame n f found = s.endEntry .delivered t := by
  simp only [State.disposeFrame, kind, h]

/-- R142 -/
theorem State.disposeFrame_declined {t : Tag} {e : Entry} (kind : abKindOf f.kind = .declined)
    (h : s.matchEntry f.addr f.serial = some (t, e)) :
    s.disposeFrame n f found = s.declineEntry t e := by
  simp only [State.disposeFrame, kind, h]

/-- R142: a matched DECLINED ends a LISTENING entry EXPIRED at max attempts, schedules it afresh before,
and leaves an entry in another state. -/
theorem State.declineEntry_eq {t : Tag} {e : Entry} :
    s.declineEntry t e =
      if e.state ≠ .listening then s
      else if e.attempts = e.maxAttempts then s.endEntry .expired t
      else (s.dropLookup (isLaunchOf t)).schedule t e .listening (s.windowFor e) := by
  cases h : e.state <;> simp [State.declineEntry, h]

end

/-! ### The service of a slot (R136, R137) -/

/-- R137: slot `n` emptied. -/
def State.emptyAbSlot (s : State) (n : LineNo) : State := s.setAbSlot n { s.abSlot n with frame := none }

/-- R7, R137: a service answered serves the frame of its slot, empties the slot, and begins the next. -/
theorem exec_serviceAnswer {s : State} {n : LineNo} {held : Bool} {rest : List Lookup} {f : AbFrame}
    (idle : s.op = none) (quiet : s.pendingRemovals = [])
    (hl : s.lookups = { user := .service n, held := held } :: rest) (hf : (s.abSlot n).frame = some f) :
    exec .serviceAnswer s = .next (State.beginService (State.emptyAbSlot
      ((State.roamFor { s with lookups := rest } n f).disposeFrame n f (s.record f.addr).isSome) n)) := by
  have due : s.answerable = some (.service n) := State.answerable_eq_some.2 ⟨idle, quiet, held, rest, hl⟩
  have popped : s.popLookup = { s with lookups := rest } := by rw [State.popLookup, hl]; rfl
  have slot : ((State.abSlot { s with lookups := rest } n).frame) = some f := hf
  change execServiceAnswer s = _
  simp only [execServiceAnswer, due, popped, State.serveSlot, slot]
  rfl

/-- R136: what the end of a service leaves stands with no slot full, and otherwise the service of the first
full slot from the pointer begins on it. -/
theorem serviceAnswer_begins {s v : State} (h : exec .serviceAnswer s = .next v.beginService) :
    ((∀ m, (v.abSlot m).frame = none) → exec .serviceAnswer s = .next v) ∧
    (∀ (m : LineNo) (k : Nat), k < 4 → m.val = (v.servicePtr.val + 1 + k) % 4 →
      (v.abSlot m).frame ≠ none →
      (∀ (j : Nat) (l : LineNo), j < k → l.val = (v.servicePtr.val + 1 + j) % 4 →
        (v.abSlot l).frame = none) →
      exec .serviceAnswer s = .next
        { v with
          servicePtr := m
          lookups := v.lookups ++
            [{ user := .service m, held := v.op.isSome || !v.pendingRemovals.isEmpty }] }) :=
  ⟨fun empty => by rw [h, State.beginService_of_empty empty],
    fun _ _ hk hm full first => by rw [h, State.beginService_of_full hk hm full first]⟩

section
variable {s : State} {n : LineNo} {held : Bool} {rest : List Lookup} {f : AbFrame}
  (idle : s.op = none) (quiet : s.pendingRemovals = [])
  (hl : s.lookups = { user := .service n, held := held } :: rest) (hf : (s.abSlot n).frame = some f)
include idle quiet hl hf

/-- R139: the service of a REGISTER whose record is found. -/
theorem serviceAnswer_register {r : Subscriber} (kind : abKindOf f.kind = .register)
    (hr : s.record f.addr = some r) :
    exec .serviceAnswer s = .next (State.beginService
      { s.setAbSlot n { s.abSlot n with
          frame := none
          cross := if s.receiverChan n ≠ r.home then min 65535 ((s.abSlot n).cross + 1)
            else (s.abSlot n).cross } with
        lookups := rest
        directory := s.directory.map (fun q =>
          if q.addr = f.addr then q.roam (s.receiverZone n) s.time s.markMode else q) }) := by
  have found : (s.record f.addr).isSome = true := by rw [hr]; rfl
  have roamed := State.roamFor_of_some (s := { s with lookups := rest }) (n := n) hr (by rw [kind]; nofun)
  rw [exec_serviceAnswer idle quiet hl hf, State.disposeFrame_register kind, if_pos found, roamed,
    State.roamingUpdate_eq, ← (State.record_eq_some hr).2]
  simp only [State.emptyAbSlot, State.setAbSlot, State.abSlot, Quad.put_put, Quad.get_put]
  rfl

/-- R142: the service of a frame that makes no update and matches nothing. -/
theorem serviceAnswer_stray (roamed : State.roamFor { s with lookups := rest } n f = { s with lookups := rest })
    (stray : State.disposeFrame { s with lookups := rest } n f (s.record f.addr).isSome =
      State.countAbStray { s with lookups := rest } n) :
    exec .serviceAnswer s = .next (State.beginService
      { s.setAbSlot n { s.abSlot n with
          frame := none, stray := min 65535 ((s.abSlot n).stray + 1) } with
        lookups := rest }) := by
  rw [exec_serviceAnswer idle quiet hl hf, roamed, stray]
  simp only [State.emptyAbSlot, State.countAbStray, State.setAbSlot, State.abSlot, Quad.put_put,
    Quad.get_put]
  rfl

end

/-- Settles O51, by the kind of the frame, the record that its lookup finds and the entry that it matches. -/
theorem servedFramesReachTheirPage : Obligations.ServedFramesReachTheirPage := by
  unfold Obligations.ServedFramesReachTheirPage
  intro ends
  refine ⟨fun s n held rest f idle quiet hl hf => ?_,
    fun s n held rest f i e idle quiet hl hf kinds => ?_⟩
  · intro a stray other
    refine ⟨fun hk r hr => ?_, fun hk hr => ?_, fun h1 h2 h3 => ?_⟩
    · have kind : abKindOf f.kind = .register := by rw [hk]; rfl
      have served := serviceAnswer_register idle quiet hl hf kind hr
      simp only [Subscriber.roam_eq] at served
      simp only [other, decide_eq_true_eq]
      exact serviceAnswer_begins served
    · have kind : abKindOf f.kind = .register := by rw [hk]; rfl
      refine serviceAnswer_begins (serviceAnswer_stray idle quiet hl hf (State.roamFor_of_none hr) ?_)
      rw [State.disposeFrame_register kind, hr]
      rfl
    · have kind : abKindOf f.kind = .unknown := by rw [abKindOf, if_neg h1, if_neg h2, if_neg h3]
      exact serviceAnswer_begins (serviceAnswer_stray idle quiet hl hf (State.roamFor_of_unknown kind)
        (State.disposeFrame_unknown kind))
  · intro a u answers t emptied
    have kind : abKindOf f.kind = .received ∨ abKindOf f.kind = .declined := by
      rcases kinds with hk | hk <;> rw [hk] <;> decide
    have roamed : State.roamFor { s with lookups := rest } n f = u := by
      cases hr : s.record f.addr with
      | none => simp only [u, hr, State.roamFor_of_none (s := { s with lookups := rest }) hr]
      | some r =>
        have known : abKindOf f.kind ≠ .unknown := by rcases kind with hk | hk <;> rw [hk] <;> nofun
        rw [State.roamFor_of_some (s := { s with lookups := rest }) hr known, State.roamingUpdate_eq,
          (State.record_eq_some hr).2]
        simp only [u, hr, Subscriber.roam_eq]
        rfl
    have frame := State.roamFor_frame { s with lookups := rest } n f
    rw [roamed] at frame
    have matched : u.matchEntry f.addr f.serial = s.matchEntry f.addr f.serial :=
      State.matchEntry_congr (congrArg State.slots frame) _ _
    have serves {v : State} (h : u.disposeFrame n f (s.record f.addr).isSome = v) : ends s (emptied v) :=
      serviceAnswer_begins (by rw [exec_serviceAnswer idle quiet hl hf, roamed, h]; rfl)
    refine ⟨fun none => ?_, fun hi he ha unique => ?_⟩
    · exact serves (State.disposeFrame_unmatched kind (matched.trans (State.matchEntry_eq_none none)))
    · have hm : u.matchEntry f.addr f.serial = some (t, e) :=
        matched.trans (State.matchEntry_of_unique hi he ha unique)
      have declined (hk : f.kind = 0x02) :
          u.disposeFrame n f (s.record f.addr).isSome = u.declineEntry t e :=
        State.disposeFrame_declined (by rw [hk]; rfl) hm
      have window : u.windowFor e = s.windowFor e := by rw [frame]; rfl
      have lookups : u.lookups = rest := by rw [frame]
      refine ⟨fun hk => ?_, fun hk hs hmax => ?_, fun hk hs hmax => ?_, fun hk hs => ?_⟩
      · exact serves (State.disposeFrame_received (by rw [hk]; rfl) hm)
      · refine serves ((declined hk).trans ?_)
        rw [State.declineEntry_eq, if_neg (not_not_intro hs), if_pos hmax]
      · refine serves ((declined hk).trans ?_)
        rw [State.declineEntry_eq, if_neg (not_not_intro hs), if_neg hmax, window, ← lookups]
        rfl
      · refine serves ((declined hk).trans ?_)
        rw [State.declineEntry_eq, if_pos hs]

end Sys2Proof.Machine
end

/-! ## The answer-back commands (R144) -/

section

namespace Sys2Proof.Machine

/-! ### The slot of the first argument -/

/-- R144: an answer-back command with a slot number for its first argument. -/
theorem onSlot_code {f : Frame} {b : Byte} {n : LineNo} (hf : f.arg 0 = b.toNat)
    (hb : b = BitVec.ofNat 8 n.val) (s : State) (g : LineNo → State → State) : onSlot f s g = g n s := by
  have number : b.toNat = n.val := by
    rw [hb, BitVec.toNat_ofNat]
    omega
  have code : lineOfCode (f.arg 0) = some n := by simp [hf, number, lineOfCode]
  simp only [onSlot, code]

/-- R144: another first argument gives RANGE. -/
theorem onSlot_range {f : Frame} {b : Byte} (hf : f.arg 0 = b.toNat) (hb : 3 < b.toNat) (s : State)
    (g : LineNo → State → State) : onSlot f s g = s.answer .range [] := by
  have code : lineOfCode (f.arg 0) = none := by
    rw [hf]
    exact dif_neg (by omega)
  simp only [onSlot, code]

/-! ### ANSWER-BACK STATUS and ANSWER-BACK CLEAR -/

/-- R144, R168: the bytes of ANSWER-BACK STATUS. -/
theorem State.abBytes_eq (s : State) (n : LineNo) :
    s.abBytes n =
      [flagByte (s.abSlot n).frame.isSome,
        match s.lookups.find? (fun l => isServiceOf n l.user) with
        | none => 0
        | some l => if l.held then 2 else 1]
      ++ (match (s.abSlot n).frame with
          | none => [0xFF, 0xFF, 0xFF, 0xFF, 0xFF]
          | some f => beBytes 3 f.addr ++ [BitVec.ofNat 8 f.serial, f.kind])
      ++ [if s.setting (0x150 + 2 * n.val) = 0 then 0 else 1,
          BitVec.ofNat 8 (s.setting (0x151 + 2 * n.val))]
      ++ beBytes 2 (s.abSlot n).stray ++ beBytes 2 (s.abSlot n).cross ++ beBytes 2 (s.abSlot n).dropped
      ++ [BitVec.ofNat 8 s.servicePtr.val] := by
  have serve : serveStateByte (s.serveState n) =
      (match s.lookups.find? (fun l => isServiceOf n l.user) with
      | none => 0
      | some l => if l.held then 2 else 1 : Byte) := by
    unfold State.serveState
    cases s.lookups.find? (fun l => isServiceOf n l.user) with
    | none => rfl
    | some l => cases h : l.held <;> simp [serveStateByte, h]
  have frame : abFrameBytes (s.abSlot n).frame =
      (match (s.abSlot n).frame with
      | none => [0xFF, 0xFF, 0xFF, 0xFF, 0xFF]
      | some f => beBytes 3 f.addr ++ [BitVec.ofNat 8 f.serial, f.kind]) := by
    cases (s.abSlot n).frame <;> rfl
  have receiver : chanByte (s.receiverChan n) = if s.setting (0x150 + 2 * n.val) = 0 then 0 else 1 := by
    unfold State.receiverChan
    split <;> rfl
  rw [← serve, ← frame, ← receiver]
  rfl

section
variable {s : State} {b m : Byte} (idle : s.op = none)
include idle

theorem answerBackStatus_taken (harr : s.lastArrives .answerBackStatus [] b noDesig) :
    exec (.answerBackStatus (.last b)) s = .next
      (takeAnswerBackStatus
        { cmd := .answerBackStatus, args := [b], misq := false, desig := noDesig, outcome := .none }
        s.lastTaken) :=
  congrArg Host.Outcome.next (portLast_taken harr (.inl idle))

theorem answerBackClear_taken (harr : s.lastArrives .answerBackClear [b] m noDesig) :
    exec (.answerBackClear (.last m)) s = .next
      (takeAnswerBackClear
        { cmd := .answerBackClear, args := [b, m], misq := false, desig := noDesig, outcome := .none }
        s.lastTaken) :=
  congrArg Host.Outcome.next (portLast_taken harr (.inl idle))

end

end Sys2Proof.Machine
end

/-! ## The monitor commands (R146, R147, R151 to R153) -/

section

namespace Sys2Proof.Machine

/-! ### The effective boot level (R146) -/

theorem State.levelEnabled_iff {s : State} {l : Nat} :
    s.levelEnabled l = true ↔ l = 0 ∨ s.setting (0x16D + l) = 1 := by
  rw [State.levelEnabled, Bool.or_eq_true, decide_eq_true_eq, decide_eq_true_eq, enableAddr]

/-- The first number of a falling list that a test passes is the greatest of it that does. -/
theorem not_of_find?_of_lt {l : List Nat} (falling : l.Pairwise (· > ·)) {p : Nat → Bool} {i k : Nat}
    (found : l.find? p = some i) (hk : k ∈ l) (hi : i < k) : ¬ p k = true := by
  obtain ⟨-, before, after, rfl, failed⟩ := List.find?_eq_some_iff_append.1 found
  have later : ∀ j ∈ after, i > j := (List.pairwise_cons.1 (List.pairwise_append.1 falling).2.1).1
  rcases List.mem_append.1 hk with hb | hb
  · simpa using failed k hb
  · rcases List.mem_cons.1 hb with rfl | ha
    · omega
    · have := later k ha
      omega

/-- R147: no level between the next lower enabled level and `l` is enabled. -/
theorem State.nextLower_greatest (s : State) (l : Nat) :
    s.nextLower l ≤ l ∧ ∀ k, s.nextLower l < k → k < l → k ≤ 3 → ¬ s.levelEnabled k = true := by
  unfold State.nextLower
  have listed : ∀ k, 0 < k → k ≤ 3 → k ∈ ([3, 2, 1] : List Nat) := fun k h0 h3 => by
    simp only [List.mem_cons, List.not_mem_nil, or_false]
    omega
  have passes : ∀ k, k < l → s.levelEnabled k = true → (decide (k < l) && s.levelEnabled k) = true :=
    fun k hk he => by rw [he, Bool.and_true, decide_eq_true hk]
  cases h : ([3, 2, 1] : List Nat).find? (fun k => decide (k < l) && s.levelEnabled k) with
  | none =>
    exact ⟨Nat.zero_le l, fun k h0 hl h3 he =>
      List.find?_eq_none.1 h k (listed k h0 h3) (passes k hl he)⟩
  | some i =>
    have below := List.find?_some h
    simp only [Bool.and_eq_true, decide_eq_true_eq] at below
    exact ⟨below.1.le, fun k hi hl h3 he =>
      not_of_find?_of_lt (by decide) h (listed k (Nat.zero_lt_of_lt hi) h3) hi (passes k hl he)⟩

/-- R146: the effective boot level is the greatest enabled level that is not above the boot level. -/
theorem State.effectiveBoot_greatest {s : State} (h : s.bootLevel ≤ 3) :
    s.effectiveBoot ≤ s.bootLevel ∧ s.levelEnabled s.effectiveBoot = true ∧
      ∀ k, s.effectiveBoot < k → k ≤ s.bootLevel → ¬ s.levelEnabled k = true := by
  refine ⟨?_, (State.effectiveBoot_enabled h).1, ?_⟩ <;> unfold State.effectiveBoot
  · split
    · exact le_rfl
    · exact (s.nextLower_greatest _).1
  · split
    · exact fun k hlt hle => absurd hlt (Nat.not_lt.2 hle)
    · next off =>
      intro k hlt hle
      rcases Nat.eq_or_lt_of_le hle with rfl | hk
      · exact off
      · exact (s.nextLower_greatest _).2 k hlt hk (hle.trans h)

/-! ### Both channels moved to one level (R147) -/

/-- R147: the notice of a move of both channels to level `l`: LEVEL where the level of one differs. -/
def State.notified (s : State) (l : Nat) : State :=
  if (s.mon .A).level ≠ l ∨ (s.mon .B).level ≠ l then s.raise .level else s

theorem State.moveLevels_mons_iff {s : State} {l : Nat} :
    (s.moveLevels fun _ => l).mons = s.mons ↔ ¬ ((s.mon .A).level ≠ l ∨ (s.mon .B).level ≠ l) := by
  rw [not_or, not_not, not_not]
  constructor
  · intro h
    have stays (c : Chan) : (s.mon c).level = l := by
      rw [← Monitor.movedTo_eq_iff, ← State.mon_moveLevels s (fun _ => l), State.mon, h, State.mon]
    exact ⟨stays .A, stays .B⟩
  · rintro ⟨hA, hB⟩
    refine State.mons_ext fun c => ?_
    rw [State.mon_moveLevels]
    cases c
    · exact Monitor.movedTo_self hA
    · exact Monitor.movedTo_self hB

/-- R147, R163: what a monitor command leaves that moves both channels from their levels to level `l`. -/
theorem State.moveLevels_codeTaken {s u : State} {on : Bool}
    (taken : u = { s.codeTaken with monitorOn := on, mons := u.mons })
    (levels : ∀ c, (u.mon c).level = (s.mon c).level) (l : Nat) :
    (u.moveLevels fun _ => l).answer .ok [] =
      { (s.afterCode [0x00]).notified l with monitorOn := on, mons := (u.moveLevels fun _ => l).mons } := by
  have stays : (u.moveLevels fun _ => l).mons = u.mons ↔
      ¬ ((s.mon .A).level ≠ l ∨ (s.mon .B).level ≠ l) := by
    rw [← levels, ← levels]
    exact State.moveLevels_mons_iff
  conv_lhs => rw [State.moveLevels_frame]
  generalize (u.moveLevels fun _ => l).mons = ms at stays ⊢
  by_cases differs : (s.mon .A).level ≠ l ∨ (s.mon .B).level ≠ l
  · have raised : (s.afterCode [0x00]).notified l = (s.afterCode [0x00]).raise .level := if_pos differs
    rw [if_neg (mt stays.1 (not_not_intro differs)), raised, taken]
    rfl
  · have quiet : (s.afterCode [0x00]).notified l = s.afterCode [0x00] := if_neg differs
    rw [if_pos (stays.2 differs), quiet, taken]
    rfl

/-! ### The three commands (R151 to R153) -/

/-- R151: a record with its filter cleared, its level apart. -/
def Monitor.cleared (m : Monitor) : Monitor := { m with activity := 0, up := 0, down := 0, residency := 0 }

theorem Monitor.cleared_movedTo (m : Monitor) (l : Nat) :
    m.cleared.movedTo l = { m with activity := 0, level := l, up := 0, down := 0, residency := 0 } := by
  unfold Monitor.movedTo
  split
  · next h =>
    subst h
    rfl
  · rfl

/-- R147: a move of channel A leaves the record of channel B alone. -/
theorem State.setMon_moveLevel (s : State) (l : Nat) (m : Monitor) :
    (s.moveLevel .A l).setMon .B m = (s.setMon .B m).moveLevel .A l :=
  apply_ite (fun u : State => u.setMon .B m) _ _ _

/-- R151: both filters restarted is both records cleared, and the channels moved from their levels. -/
theorem State.restartMonitors_eq (s : State) :
    (s.restartMonitor .A).restartMonitor .B =
      State.moveLevels { s with mons := ⟨(s.mon .A).cleared, (s.mon .B).cleared⟩ }
        (fun _ => s.effectiveBoot) := by
  have other : (s.restartMonitor .A).mon .B = s.mon .B := by
    rw [State.restartMonitor, State.mon_moveLevel_ne _ _ (by decide), State.mon_setMon_ne _ _ (by decide)]
  have boot : (s.restartMonitor .A).effectiveBoot = s.effectiveBoot :=
    State.effectiveBoot_congr (State.moveLevel_settings ..)
  rw [State.restartMonitor, boot, other, State.restartMonitor, State.setMon_moveLevel]
  rfl

theorem flagByte_levelEnabled (s : State) {l : Nat} (hl : l ≠ 0) :
    flagByte (s.levelEnabled l) = if s.setting (0x16D + l) = 1 then 1 else 0 :=
  if_congr (State.levelEnabled_iff.trans (or_iff_right hl)) rfl rfl

/-- R153: the bytes of MONITOR STATUS before the channels' figures. -/
theorem monitorStatusBytes_eq (s : State) :
    monitorStatusBytes s =
      [flagByte s.monitorOn, BitVec.ofNat 8 (s.setting 0x171), BitVec.ofNat 8 s.effectiveBoot,
        if s.setting 0x16E = 1 then 1 else 0, if s.setting 0x16F = 1 then 1 else 0,
        if s.setting 0x170 = 1 then 1 else 0] ++ s.monitorBytes .A ++ s.monitorBytes .B := by
  rw [monitorStatusBytes, flagByte_levelEnabled s (by decide), flagByte_levelEnabled s (by decide),
    flagByte_levelEnabled s (by decide)]
  rfl

section
variable {s : State}

theorem monitorEnable_taken (harr : s.codeArrives .monitorEnable noDesig) :
    exec .monitorEnable s = .next ((State.moveLevels
      { s.codeTaken with monitorOn := true, mons := ⟨(s.mon .A).cleared, (s.mon .B).cleared⟩ }
      fun _ => s.effectiveBoot).answer .ok []) := by
  change Host.Outcome.next (portCode .monitorEnable takeMonitorEnable s) = _
  rw [portCode_operative harr, takeMonitorEnable, State.restartMonitors_eq]
  rfl

theorem monitorDisable_taken_off (harr : s.codeArrives .monitorDisable noDesig) (off : s.monitorOn = false) :
    exec .monitorDisable s = .next (s.afterCode [0x00]) :=
  congrArg Host.Outcome.next ((portCode_operative harr).trans (if_neg (ne_true_of_eq_false off)))

theorem monitorDisable_taken_on (harr : s.codeArrives .monitorDisable noDesig) (on : s.monitorOn = true) :
    exec .monitorDisable s = .next ((State.moveLevels
      { s.codeTaken with monitorOn := false } fun _ => s.effectiveBoot).answer .ok []) :=
  congrArg Host.Outcome.next ((portCode_operative harr).trans (if_pos on))

theorem monitorStatus_taken (harr : s.codeArrives .monitorStatus noDesig) :
    exec .monitorStatus s = .next (s.afterCode (0x00 :: monitorStatusBytes s)) := by
  change Host.Outcome.next (portCode .monitorStatus takeMonitorStatus s) = _
  rw [portCode_operative harr]
  rfl

end

/-- Settles O52: the answer-back commands by the slot of their argument, and the monitor commands by the moves
of both channels to the effective boot level. -/
theorem answerBackAndMonitorCommands : Obligations.AnswerBackAndMonitorCommands := by
  refine ⟨fun s b m idle => ⟨fun harr hb => ?_, fun harr hb => ?_,
    fun n hb => ⟨fun harr => ?_, fun harr => ?_⟩⟩, fun s => ?_⟩
  · rw [answerBackStatus_taken idle harr, takeAnswerBackStatus, onSlot_range (b := b) rfl hb]
    rfl
  · rw [answerBackClear_taken idle harr, takeAnswerBackClear, onSlot_range (b := b) rfl hb]
    rfl
  · rw [answerBackStatus_taken idle harr, takeAnswerBackStatus, onSlot_code (b := b) rfl hb, State.abBytes_eq]
    rfl
  · rw [answerBackClear_taken idle harr, takeAnswerBackClear, onSlot_code (b := b) rfl hb]
    rfl
  · intro boot differs notified enabled figures
    refine ⟨fun h => ?_, fun harr => ?_, monitorDisable_taken_off, fun harr on => ?_, fun harr => ?_⟩
    · obtain ⟨below, greatest, above⟩ := State.effectiveBoot_greatest h
      exact ⟨below, State.levelEnabled_iff.1 greatest,
        fun k hlt hle he => above k hlt hle (State.levelEnabled_iff.2 he)⟩
    · refine ⟨_, monitorEnable_taken harr, fun c => ?_,
        State.moveLevels_codeTaken (s := s) rfl (fun c => by cases c <;> rfl) boot⟩
      refine (State.mon_moveLevels _ _ c).trans ?_
      cases c <;> exact Monitor.cleared_movedTo _ _
    · refine ⟨_, monitorDisable_taken_on harr on, fun c => State.mon_moveLevels _ _ c,
        State.moveLevels_codeTaken (s := s) rfl (fun c => ?_) boot⟩
      rfl
    · rw [monitorStatus_taken harr, monitorStatusBytes_eq]
      rfl

end Sys2Proof.Machine
end

/-! ## The sample of a channel and its move (R147 to R149) -/

section

namespace Sys2Proof.Machine

/-! ### The next levels (R147) -/

/-- R147: the lowest enabled level above `l` is its next higher enabled level. -/
theorem State.nextHigher_eq {s : State} {l k : Nat} (above : l < k) (top : k ≤ 3)
    (enabled : s.levelEnabled k = true)
    (lowest : ∀ j, l < j → j < k → s.levelEnabled j = false) : s.nextHigher l = some k := by
  have listed : k ∈ ([1, 2, 3] : List Nat) := by
    simp only [List.mem_cons, List.not_mem_nil, or_false]
    omega
  refine find?_eq_some_of_first (R := (· < ·)) (by decide) listed (by simp [above, enabled]) ?_
  intro j _ passes hj
  simp only [Bool.and_eq_true, decide_eq_true_eq] at passes
  rw [lowest j passes.1 hj] at passes
  cases passes.2

/-- R147: below a level of 1 or more there is always an enabled level. -/
theorem State.nextLower_lt (s : State) {l : Nat} (h : 0 < l) : s.nextLower l < l := by
  unfold State.nextLower
  cases found : ([3, 2, 1] : List Nat).find? (fun k => decide (k < l) && s.levelEnabled k) with
  | none => exact h
  | some k =>
    have passes := List.find?_some found
    simp only [Bool.and_eq_true, decide_eq_true_eq] at passes
    exact passes.1

/-- R147: the highest enabled level below `l` is its next lower enabled level. -/
theorem State.nextLower_eq {s : State} {l k : Nat} (below : k < l) (top : l ≤ 3)
    (enabled : s.levelEnabled k = true)
    (highest : ∀ j, k < j → j < l → s.levelEnabled j = false) : s.nextLower l = k := by
  rcases Nat.lt_trichotomy (s.nextLower l) k with h | h | h
  · exact absurd enabled ((s.nextLower_greatest l).2 k h below (by omega))
  · exact h
  · have off := highest _ h (s.nextLower_lt (Nat.zero_lt_of_lt below))
    rw [(s.nextLower_enabled l).1] at off
    cases off

/-! ### The record of a sample and its move (R148, R149) -/

/-- R147: a record written and then moved is the moved record written, and LEVEL raised. -/
theorem State.moveLevel_setMon (s : State) (c : Chan) {m : Monitor} {l : Nat} (h : m.level ≠ l) :
    (s.setMon c m).moveLevel c l =
      (s.setMon c { m with level := l, up := 0, down := 0, residency := 0 }).raise .level := by
  rw [State.moveLevel, State.mon_setMon, if_neg h]
  cases c <;> rfl

/-- R149: the up test asks for an enabled level above and for the threshold of the level at which the channel
stands. -/
theorem State.upTest_eq (s : State) (c : Chan) (a : Nat) :
    s.upTest c a =
      (([1, 2, 3] : List Nat).any (fun l => decide ((s.mon c).level < l) && s.levelEnabled l) &&
        decide (s.setting (0x160 + 2 * (s.mon c).level) ≤ a)) := by
  rw [State.upTest, State.nextHigher, List.isSome_find?, State.upThreshold]

section
variable {s : State} {m : Monitor} {up down : Bool}

/-- R149: a sample whose up count reaches Hup goes to the next higher level. -/
theorem State.sampleTarget_of_rises (h : up = true ∧ s.hup ≤ m.up) :
    s.sampleTarget m up down = s.nextHigher m.level :=
  if_pos (by rw [h.1, Bool.true_and, decide_eq_true h.2])

/-- R149: where the up test moves nothing, the target is that of the down test. -/
theorem State.sampleTarget_of_not_rises (h : ¬ (up = true ∧ s.hup ≤ m.up)) :
    s.sampleTarget m up down = if down = true ∧ s.hdown ≤ m.down then some (s.nextLower m.level) else none := by
  rw [State.sampleTarget, if_neg (by rwa [Bool.and_eq_true, decide_eq_true_eq])]
  simp only [Bool.and_eq_true, decide_eq_true_eq]

end

/-- R107: LEVEL_MOVE makes the sample that its channel has still to make. -/
theorem exec_levelMove (c : Chan) (s : State) : exec (.levelMove c) s = .next (s.takeLateSample c) := rfl

/-- Settles O41: the target of the sample is the next higher level where the up count reaches Hup, else the
next lower one where the down count reaches Hdown, and else there is none. -/
theorem samplesAndMoves : Obligations.SamplesAndMoves := by
  refine ⟨fun s c => ?_, fun s c => ⟨fun due => ?_, fun clear => ?_⟩⟩
  · intro m a upPasses downPasses up down rises falls moved
    refine ⟨State.sample_of_off, fun on => ?_⟩
    have upTest : s.upTest c a = upPasses := s.upTest_eq c a
    have downTest : s.downTest c a = downPasses := rfl
    let sampled := m.sampled a upPasses downPasses
    have record : sampled = m.sampled a (s.upTest c a) (s.downTest c a) := by rw [upTest, downTest]
    obtain ⟨moves, stays⟩ := State.sample_of_on on (a := a) rfl record
    rw [upTest, downTest] at moves stays
    have movedTo {l : Nat} (h : m.level ≠ l) : (s.setMon c sampled).moveLevel c l = moved l :=
      s.moveLevel_setMon c h
    refine ⟨fun l hrises above top enabled lowest => ?_, fun l hfalls below top enabled highest => ?_,
      fun hrises hfalls => ?_⟩
    · have target := (State.sampleTarget_of_rises (m := sampled) (down := downPasses) hrises).trans
        (State.nextHigher_eq above top enabled lowest)
      exact (moves l target).trans (movedTo above.ne)
    · obtain ⟨hrises, hdown⟩ := hfalls
      have lower : s.nextLower sampled.level = l := State.nextLower_eq below top enabled highest
      have target := (State.sampleTarget_of_not_rises (m := sampled) hrises).trans (if_pos hdown)
      exact (moves l (lower ▸ target)).trans (movedTo below.ne')
    · have target := (State.sampleTarget_of_not_rises (m := sampled) hrises).trans
        (if_neg fun hdown => hfalls ⟨hrises, hdown⟩)
      exact stays target
  · rw [exec_levelMove, State.takeLateSample, if_pos due, State.setSampleDue]
  · rw [exec_levelMove, State.takeLateSample_of_clear clear]

end Sys2Proof.Machine
end

/-! ## The settlement commands (R155 to R157) -/

section

namespace Sys2Proof.Machine

/-! ### The sweep (R156) -/

section
variable {s : State}

/-- R156: the sweep finds the account at or above the cursor that is marked and has no marked one before
it. -/
theorem State.nextMarked_eq_some {i : Nat} (above : s.settleCursor ≤ i) (top : i < 1024)
    (marked : (s.acct i).mark = true)
    (first : ∀ j, s.settleCursor ≤ j → j < i → (s.acct j).mark = false) : s.nextMarked = some i := by
  refine List.find?_range_eq_some.2 ⟨by simp [above, marked], List.mem_range.2 top, fun j below => ?_⟩
  rw [Bool.not_eq_true', Bool.and_eq_false_imp, decide_eq_true_eq]
  exact fun reached => first j reached below

/-- R157: with no marked account at or above the cursor, the sweep finds none. -/
theorem State.nextMarked_eq_none
    (clear : ∀ j, s.settleCursor ≤ j → j < 1024 → (s.acct j).mark = false) : s.nextMarked = none := by
  refine List.find?_range_eq_none.2 fun j top => ?_
  rw [Bool.not_eq_true', Bool.and_eq_false_imp, decide_eq_true_eq]
  exact fun reached => clear j reached top

/-! ### SETTLE BEGIN and SETTLE READ -/

/-- R155 -/
theorem settleBegin_taken (harr : s.codeArrives .settleBegin noDesig) :
    exec .settleBegin s = .next { s.afterCode [0x00] with settleCursor := 0 } :=
  congrArg Host.Outcome.next (portCode_operative harr)

/-- R163: SETTLE READ is taken at its code. -/
theorem settleRead_taken (harr : s.codeArrives .settleRead noDesig) :
    ∃ f, exec .settleRead s = .next (takeSettleRead f s.codeTaken) :=
  ⟨_, congrArg Host.Outcome.next (portCode_operative harr)⟩

/-- R156 -/
theorem settleRead_found {i : Nat} (harr : s.codeArrives .settleRead noDesig)
    (found : s.nextMarked = some i) :
    exec .settleRead s = .next
      { (s.codeTaken.setAcct i (s.acct i).settled).answer .ok (settleBytes i (s.acct i)) with
        settleCursor := i + 1 } := by
  have sweep : s.codeTaken.nextMarked = some i := found
  obtain ⟨f, taken⟩ := settleRead_taken harr
  unfold takeSettleRead at taken
  rw [taken, sweep]
  rfl

/-- R157 -/
theorem settleRead_exhausted (harr : s.codeArrives .settleRead noDesig)
    (exhausted : s.nextMarked = none) :
    exec .settleRead s = .next
      { s.afterCode (0x02 :: List.replicate 33 0) with settleCursor := 1024 } := by
  have sweep : s.codeTaken.nextMarked = none := exhausted
  obtain ⟨f, taken⟩ := settleRead_taken harr
  unfold takeSettleRead at taken
  rw [taken, sweep]
  rfl

end

/-- Settles O21: the command moves the cursor and nothing else. -/
theorem settleBeginRestartsTheSweep : Obligations.SettleBeginRestartsTheSweep :=
  fun _ => settleBegin_taken

/-- Settles O22, by whether the sweep finds an account. -/
theorem settleReadSweeps : Obligations.SettleReadSweeps := by
  refine fun s harr => ⟨fun i above top marked first => ?_, fun clear => ?_⟩
  · obtain ⟨settled, others, rest⟩ := s.setAcct_answered i (s.acct i).settled (settleBytes i (s.acct i))
    exact ⟨_, settleRead_found harr (State.nextMarked_eq_some above top marked first), settled, others,
      congrArg (fun t : State => { t with settleCursor := i + 1 }) rest⟩
  · exact settleRead_exhausted harr (State.nextMarked_eq_none clear)

end Sys2Proof.Machine
end

/-! ## The frame of a command: its code, MISQUALIFIED and BUSY (R161 to R165) -/

section

namespace Sys2Proof.Machine

/-- Settles O4: the row of a code is a code on the port, and it opens the frame of its command. -/
theorem codeOpensItsFrame : Obligations.CodeOpensItsFrame := by
  intro s c args ready idle closed
  obtain ⟨take, row⟩ := exec_codeRow c
  rw [row, portCode_opens args ready idle closed, State.newFrame, State.openFrame, ← Port.paired_latch]
  cases operative c <;> rfl

/-! ### Frames that their command does not act on (R162, R165) -/

/-- R165: a command without arguments whose designators do not match the latch. -/
theorem portCode_misqualified {s : State} {c : Cmd} {take : Frame → State → State} (op : operative c = true)
    (args : cmdArgs c = 0) (ready : s.byteReady true false (cmdCode c)) (idle : s.op = none)
    (closed : s.port.frame = none) (differs : latchMatches c s.port.latch = false) :
    portCode c take s = s.afterCode [0x06] := by
  have marked : (s.newFrame c).misq = true := by rw [State.newFrame, op, differs]; rfl
  rw [portCode_taken args ready idle closed, State.takeFrame, if_pos marked, State.openFrame, op]
  rfl

/-- R161, R162: at the last byte of a frame busy is judged first, and then whether the frame is marked. -/
theorem portLast_eq {s : State} {f : Frame} {take : Frame → State → State} {b : Byte}
    (ready : s.byteReady true true b) (opened : s.port.frame = some f)
    (complete : argsComplete f.cmd (f.args ++ [b]) = true) :
    portLast f.cmd take b s =
      if s.op ≠ none ∧ refusedWhileBusy f.cmd = true then s.afterLast [0x01]
      else s.lastTaken.takeFrame take { f with args := f.args ++ [b] } := by
  have refused : ((s.setPort s.port.paired).setFrame none).busy && refusedWhileBusy f.cmd ↔
      s.op ≠ none ∧ refusedWhileBusy f.cmd = true := by
    rw [Bool.and_eq_true]
    exact and_congr_left' Option.isSome_iff_ne_none
  simp only [portLast, State.strobe_of_ready ready, opened, complete, decide_true, Bool.and_self, if_true,
    refused]
  rfl

/-- R162: the codes of the commands that busy refuses at their last byte. -/
theorem refusedWhileBusy_iff (c : Cmd) :
    refusedWhileBusy c = true ↔
      cmdCode c = 0x2A ∨ (0x30 ≤ (cmdCode c).toNat ∧ cmdCode c ≠ 0x42) := by
  cases c <;> decide

/-- R161: the row of a last argument byte is a last byte on the port, for every command but SUBMIT PAGE. -/
theorem exec_lastRow {c : Cmd} {b : Byte} {i : Instr} (row : lastRow c b = some i) (other : c ≠ .submitPage) :
    ∃ take, ∀ s, exec i s = .next (portLast c take b s) := by
  cases c with
  | submitPage => exact absurd rfl other
  | selClear | noticeRead | readSubscriber | linkAccount | suspend | resume | retire | cursorRead
  | cursorReadMarked | memoryStatus | bar | unbar | closeAccount | readAccount | pageStatus | cancelPage
  | purgeTraffic | readClock | monitorEnable | monitorDisable | monitorStatus | settleBegin | settleRead =>
    cases row
  | _ =>
    cases row
    exact ⟨_, fun _ => rfl⟩

section
variable {s : State} {b : Byte} {f : Frame} {i : Instr} (row : lastRow f.cmd b = some i)
  (ready : s.byteReady true true b) (opened : s.port.frame = some f)
  (complete : argsComplete f.cmd (f.args ++ [b]) = true)
include row ready opened complete

/-- R165: the last byte of a marked frame, where busy does not refuse it. -/
theorem exec_lastRow_misqualified (marked : f.misq = true)
    (acts : ¬ (s.op ≠ none ∧ refusedWhileBusy f.cmd = true)) : exec i s = .next (s.afterLast [0x06]) := by
  by_cases submit : f.cmd = .submitPage
  · rw [submit] at row complete
    cases row
    change s.submitLast b = _
    rw [submitLast_taken ready opened submit complete, State.submitByte, if_pos marked, if_pos complete]
    rfl
  · obtain ⟨take, taken⟩ := exec_lastRow row submit
    rw [taken, portLast_eq ready opened complete, if_neg acts, State.takeFrame, if_pos marked]
    rfl

/-- R162: the last byte of a frame that busy refuses. -/
theorem exec_lastRow_busy (busy : s.op ≠ none) (refused : refusedWhileBusy f.cmd = true) :
    exec i s = .next (s.afterLast [0x01]) := by
  have other : f.cmd ≠ .submitPage := fun submit => by rw [submit] at refused; cases refused
  obtain ⟨take, taken⟩ := exec_lastRow row other
  rw [taken, portLast_eq ready opened complete, if_pos ⟨busy, refused⟩]

end

/-- Settles O6: a command at its code, a marked frame at its last byte, and a frame that busy refuses. -/
theorem misqualifiedAndBusyFrames : Obligations.MisqualifiedAndBusyFrames := by
  refine ⟨fun s c => ⟨fun op args ready idle closed differs => ?_, ?_⟩, ?_⟩
  · obtain ⟨take, row⟩ := exec_codeRow c
    rw [row, portCode_misqualified op args ready idle closed differs]
  · rintro b f i row ready opened rfl marked complete acts
    refine exec_lastRow_misqualified row ready opened complete marked fun ⟨busy, refused⟩ => ?_
    rcases acts with idle | below | submit
    · exact busy idle
    · rcases (refusedWhileBusy_iff _).1 refused with write | ⟨above, -⟩
      · rw [write] at below
        exact absurd below (by decide)
      · omega
    · rcases (refusedWhileBusy_iff _).1 refused with write | ⟨-, other⟩
      · rw [submit] at write
        exact absurd write (by decide)
      · exact other submit
  · rintro s _ b f i row ready opened rfl complete busy code
    exact exec_lastRow_busy row ready opened complete busy ((refusedWhileBusy_iff _).2 code)

end Sys2Proof.Machine
end

/-! ## Reads of the port and the strobe pairs of 4-bit mode (R160, R163) -/

section

namespace Sys2Proof.Machine

/-! ### Nibbles -/

theorem nibbleByte_eq (v : BitVec 4) : nibbleByte v = v ++ 0#4 := by
  revert v
  decide

theorem highNibble_eq (b : Byte) : highNibble b = b.extractLsb' 4 4 := by
  apply BitVec.eq_of_toNat_eq
  simp [highNibble]

theorem lowNibble_eq (b : Byte) : lowNibble b = b.extractLsb' 0 4 :=
  BitVec.setWidth_eq_extractLsb' (by decide)

/-! ### The status byte (R163) -/

/-- R163: the byte whose bits 0 to 3 are the four flags of the status byte. -/
def statusBits (busy ready notice four : Bool) : Byte :=
  (if busy then 0x01 else 0) ||| (if ready then 0x02 else 0) ||| (if notice then 0x04 else 0)
    ||| (if four then 0x08 else 0)

theorem State.statusByte_eq (s : State) :
    s.statusByte = statusBits s.op.isSome s.port.ready s.noticePending s.port.fourBit := rfl

theorem statusBits_bits : ∀ busy ready notice four,
    (statusBits busy ready notice four).getLsbD 0 = busy ∧
    (statusBits busy ready notice four).getLsbD 1 = ready ∧
    (statusBits busy ready notice four).getLsbD 2 = notice ∧
    (statusBits busy ready notice four).getLsbD 3 = four ∧
    (statusBits busy ready notice four).toNat < 16 := by
  decide

/-- A byte below 16 is made of its low four bits. -/
theorem eq_statusBits {b : Byte} (low : b.toNat < 16) :
    b = statusBits (b.getLsbD 0) (b.getLsbD 1) (b.getLsbD 2) (b.getLsbD 3) := by
  have cut : b = BitVec.ofNat 8 (⟨b.toNat, low⟩ : Fin 16).val := (BitVec.ofNat_toNat 8 b).symm
  generalize (⟨b.toNat, low⟩ : Fin 16) = n at cut
  subst cut
  revert n
  decide

/-! ### Reads in 8-bit mode -/

section
variable {s : State} (eight : s.port.fourBit = false)
include eight

theorem exec_resultRead (cd : Bool) :
    exec (.resultRead cd) s = .next ((s.drive (s.readByte cd)).completeRead cd) := by
  change execResultRead cd s = _
  rw [execResultRead, if_neg (ne_true_of_eq_false eight)]

/-- R163: a read of a byte of the result. -/
theorem exec_resultRead_byte {l r : List Byte} {b : Byte} (split : s.port.result = l ++ b :: r)
    (here : s.port.readIdx = l.length) :
    exec (.resultRead true) s = .next
      { s with
        port := { s.port with readIdx := l.length + 1, ready := s.port.ready && !r.isEmpty }
        out := { s.out with data := b } } := by
  have byte : s.readByte true = b := by simp [State.readByte, split, here]
  have within : s.port.readIdx < s.port.result.length := by simp [split, here]
  have more : decide (s.port.readIdx + 1 < s.port.result.length) = !r.isEmpty := by
    cases r <;> simp [split, here]
  have advanced : s.port.advance =
      { s.port with readIdx := l.length + 1, ready := s.port.ready && !r.isEmpty } := by
    rw [Port.advance, if_pos within, more, here]
  rw [exec_resultRead eight, byte, ← advanced]
  rfl

/-- R163: a read past the result. -/
theorem exec_resultRead_past (past : s.port.result.length ≤ s.port.readIdx) :
    exec (.resultRead true) s = .next { s with out := { s.out with data := 0 } } := by
  have byte : s.readByte true = 0 := List.getD_eq_default _ _ past
  have stays : s.port.advance = s.port := if_neg (Nat.not_lt.2 past)
  rw [exec_resultRead eight, byte]
  change Host.Outcome.next (State.setPort _ s.port.advance) = _
  rw [stays]
  rfl

end

/-! ### The strobes of a pair in 4-bit mode -/

section
variable {s : State} (four : s.port.fourBit = true)
include four

/-- R160: the first strobe of a pair is one that does not complete a pair. -/
theorem exec_pendingNibble {write cd : Bool} {v : BitVec 4} (first : s.port.completesPair write cd = false) :
    exec (.pendingNibble write cd v) s = .next
      (if write then s.setPort { s.port with nibble := some { write, cd, value := v } }
      else (s.setPort { s.port with nibble := some { write, cd, value := lowNibble (s.readByte cd) } }).drive
        (nibbleByte (highNibble (s.readByte cd)))) := by
  change execPendingNibble write cd v s = _
  rw [execPendingNibble, if_pos (by rw [four, first]; rfl)]
  rfl

/-- R160: the second strobe of a read drives the low nibble and acts as the read of one byte. -/
theorem exec_resultRead_second {cd : Bool} {v : BitVec 4}
    (pending : s.port.nibble = some { write := false, cd := cd, value := v }) :
    exec (.resultRead cd) s = .next
      (((s.setPort { s.port with nibble := none }).drive (nibbleByte v)).completeRead cd) := by
  have low : s.port.readPending cd = some v := by simp [Port.readPending, pending]
  change execResultRead cd s = _
  rw [execResultRead, if_pos four, low]
  rfl

end

/-- R160: a strobe of the other direction or of the other CD is the first of a new pair. -/
theorem Port.completesPair_eq_false {p : Port} {write cd : Bool}
    (h : ∀ n, p.nibble = some n → n.write = (!write) ∨ n.cd ≠ cd) : p.completesPair write cd = false := by
  unfold Port.completesPair
  split
  · next n hn => rcases h n hn with other | other <;> simp [other]
  · rfl

/-- Settles O9: the reads of 8-bit mode, and the strobes of 4-bit mode by their place in the pair. -/
theorem readsAndNibbles : Obligations.ReadsAndNibbles := by
  refine ⟨fun s eight => ⟨fun l b r split here => exec_resultRead_byte eight split here,
    exec_resultRead_past eight, s.statusByte, exec_resultRead eight false, ?_⟩,
    fun s cd four => ⟨fun v first => ?_, fun b first result status => ?_, fun v pending => ?_⟩⟩
  · rw [s.statusByte_eq, eight]
    exact statusBits_bits _ _ _ _
  · exact exec_pendingNibble four (Port.completesPair_eq_false (write := true) first)
  · have formed : s.readByte cd = b := by
      cases cd with
      | true => exact (result rfl).symm
      | false =>
        obtain ⟨busy, ready, notice, width, low⟩ := status rfl
        rw [eq_statusBits low, busy, ready, notice, width, ← four]
        rfl
    rw [exec_pendingNibble four (Port.completesPair_eq_false (write := false) first), formed, nibbleByte_eq,
      highNibble_eq, lowNibble_eq]
    rfl
  · rw [exec_resultRead_second four pending, nibbleByte_eq]
    cases cd with
    | false => rfl
    | true =>
      change Host.Outcome.next (State.setPort _ (Port.advance _)) = _
      simp only [Port.advance, true_and]
      rfl

end Sys2Proof.Machine
end

/-! ## The SEL commands, PORT WIDTH and the notice commands (R160, R164, R166) -/

section

namespace Sys2Proof.Machine

@[simp] theorem State.lastTaken_latch (s : State) : s.lastTaken.port.latch = s.port.latch := s.port.paired_latch
@[simp] theorem State.lastTaken_causes (s : State) : s.lastTaken.port.causes = s.port.causes :=
  s.port.paired_causes

/-! ### Designators (R164) -/

section
variable {s : State} {d : Latch}

theorem selSubscriber_taken {b0 b1 b2 : Byte} (harr : s.lastArrives .selSubscriber [b0, b1] b2 d) :
    exec (.selSubscriber (.last b2)) s = .next
      (if 4194303 < beValue [b0, b1, b2] then s.afterLast [0x07]
      else if s.port.latch.sub ≠ none then s.afterLast [0x00, 0]
      else (s.afterLast [0x00, 1]).setLatch { s.port.latch with sub := some (beValue [b0, b1, b2]) }) := by
  change Host.Outcome.next (portLast .selSubscriber takeSelSubscriber b2 s) = _
  rw [portLast_taken harr (.inr rfl), ← s.lastTaken_latch]
  simp only [← Option.isSome_iff_ne_none]
  rfl

theorem selAccount_taken {b0 b1 : Byte} (harr : s.lastArrives .selAccount [b0] b1 d) :
    exec (.selAccount (.last b1)) s = .next
      (if 1023 < beValue [b0, b1] then s.afterLast [0x07]
      else if s.port.latch.acct ≠ none then s.afterLast [0x00, 0]
      else (s.afterLast [0x00, 1]).setLatch { s.port.latch with acct := some (beValue [b0, b1]) }) := by
  change Host.Outcome.next (portLast .selAccount takeSelAccount b1 s) = _
  rw [portLast_taken harr (.inr rfl), ← s.lastTaken_latch]
  simp only [← Option.isSome_iff_ne_none]
  rfl

theorem selPage_taken {b0 b1 : Byte} (harr : s.lastArrives .selPage [b0] b1 d) :
    exec (.selPage (.last b1)) s = .next
      (if s.port.latch.page ≠ none then s.afterLast [0x00, 0]
      else (s.afterLast [0x00, 1]).setLatch { s.port.latch with page := some (tagOf b0 b1) }) := by
  change Host.Outcome.next (portLast .selPage takeSelPage b1 s) = _
  rw [portLast_taken harr (.inr rfl), ← s.lastTaken_latch]
  simp only [← Option.isSome_iff_ne_none]
  rfl

/-- R163: a command without arguments that is not operative is taken at its code, over the latch as it is. -/
theorem portCode_inoperative {c : Cmd} {take : Frame → State → State} (args : cmdArgs c = 0)
    (op : operative c = false) (ready : s.byteReady true false (cmdCode c)) (idle : s.op = none)
    (closed : s.port.frame = none) :
    portCode c take s = take (s.newFrame c) (s.setPort s.port.paired).clearResult := by
  rw [portCode_taken args ready idle closed, State.openFrame, State.takeFrame, op]
  have clear : (s.newFrame c).misq = false := by rw [State.newFrame, op]; rfl
  rw [clear]
  rfl

theorem selClear_taken (ready : s.byteReady true false 0x04) (idle : s.op = none)
    (closed : s.port.frame = none) : exec .selClear s = .next (s.afterCode [0x00]) := by
  change Host.Outcome.next (portCode .selClear takeSelClear s) = _
  rw [portCode_inoperative (c := .selClear) rfl rfl ready idle closed]
  rfl

/-! ### PORT WIDTH and the notice commands (R160, R166) -/

theorem portWidth_taken {b : Byte} (harr : s.lastArrives .portWidth [] b d) :
    exec (.portWidth (.last b)) s = .next
      (if b.toNat = 0 then (s.lastTaken.setWidth false).answer .ok []
      else if b.toNat = 1 then (s.lastTaken.setWidth true).answer .ok []
      else s.afterLast [0x07]) :=
  congrArg Host.Outcome.next (portLast_taken harr (.inr rfl))

theorem noticeEnable_taken {b : Byte} (harr : s.lastArrives .noticeEnable [] b d) :
    exec (.noticeEnable (.last b)) s = .next
      (s.setPort (({ s.port.paired with frame := none, enables := b &&& 0x7F } : Port).answered [0x00])) :=
  congrArg Host.Outcome.next (portLast_taken harr (.inr rfl))

theorem noticeClear_taken {b : Byte} (harr : s.lastArrives .noticeClear [] b d) :
    exec (.noticeClear (.last b)) s = .next
      (s.setPort (({ s.port.paired with
        frame := none, causes := s.port.causes &&& ~~~(b &&& 0x7F) } : Port).answered [0x00])) := by
  change Host.Outcome.next (portLast .noticeClear takeNoticeClear b s) = _
  rw [portLast_taken harr (.inr rfl), ← s.lastTaken_causes]
  rfl

theorem noticeRead_taken (ready : s.byteReady true false 0x08) (idle : s.op = none)
    (closed : s.port.frame = none) :
    exec .noticeRead s = .next
      (s.setPort (s.port.paired.answered [0x00, s.port.causes, s.port.enables])) := by
  change Host.Outcome.next (portCode .noticeRead takeNoticeRead s) = _
  rw [portCode_inoperative (c := .noticeRead) rfl rfl ready idle closed, ← s.port.paired_causes,
    ← s.port.paired_enables]
  rfl

end

/-- R166: bit 7 of a mask is ignored. -/
theorem getLsbD_maskedOut (causes b : Byte) {j : Nat} (hj : j < 8) :
    (causes &&& ~~~(b &&& 0x7F)).getLsbD j = (causes.getLsbD j && !(decide (j < 7) && b.getLsbD j)) := by
  have mask : (0x7F : Byte).getLsbD j = decide (j < 7) := by
    revert j
    decide
  rw [BitVec.getLsbD_and, BitVec.getLsbD_not, BitVec.getLsbD_and, mask, decide_eq_true hj, Bool.true_and,
    Bool.and_comm (b.getLsbD j)]

/-! ### The output NOTICE (R166) -/

theorem Latch.isEmpty_iff (l : Latch) : l.isEmpty = true ↔ l = noDesig := by
  obtain ⟨sub, acct, page⟩ := l
  simp [Latch.isEmpty, and_assoc]

/-- R163: with seven causes, an enabled cause is set where a bit of 0 to 6 is set in both registers. -/
theorem State.noticePending_iff {s : State} (seven : s.port.causes.getLsbD 7 = false) :
    s.noticePending = true ↔
      ∃ k, k < 7 ∧ s.port.causes.getLsbD k = true ∧ s.port.enables.getLsbD k = true := by
  rw [State.noticePending, decide_eq_true_eq]
  constructor
  · intro nonzero
    by_contra clear
    push Not at clear
    refine nonzero (BitVec.eq_of_getLsbD_eq fun k hk => ?_)
    refine (BitVec.getLsbD_and ..).trans (Eq.trans ?_ BitVec.getLsbD_zero.symm)
    rw [Bool.and_eq_false_imp]
    intro raised
    rcases Nat.lt_succ_iff_lt_or_eq.1 hk with below | rfl
    · exact Bool.eq_false_iff.2 (clear k below raised)
    · rw [seven] at raised
      cases raised
  · rintro ⟨k, -, raised, enabled⟩ zero
    have bit : (s.port.causes &&& s.port.enables).getLsbD k = true := by
      rw [BitVec.getLsbD_and, raised, enabled]
      rfl
    rw [zero] at bit
    exact Bool.false_ne_true (BitVec.getLsbD_zero.symm.trans bit)

/-- Settles O11: each command on its own frame, and the output from the registers and the latch. -/
theorem selectorsWidthAndNotices : Obligations.SelectorsWidthAndNotices := by
  refine ⟨fun s b0 b1 b2 d => ⟨fun harr => ?_, fun harr => ?_, selPage_taken, selClear_taken⟩,
    fun s b d => ⟨fun harr => ?_, noticeEnable_taken,
      fun harr => ⟨_, noticeClear_taken harr, fun j hj => getLsbD_maskedOut _ _ hj⟩, noticeRead_taken⟩,
    fun s seven => ?_⟩
  · rw [selSubscriber_taken harr, beValue_three]
  · rw [selAccount_taken harr, beValue_two]
  · rw [portWidth_taken harr]
    rcases Nat.lt_trichotomy b.toNat 1 with zero | one | other
    · have b0 : b = 0 := byte_eq_zero_iff.2 (Nat.lt_one_iff.1 zero)
      subst b0
      rfl
    · have b1 : b = 1 := byte_eq_one_iff.2 one
      subst b1
      rfl
    · rw [if_neg (by omega), if_neg (by omega), if_neg (by omega)]
  · rw [State.notice, Bool.and_eq_true, State.noticePending_iff seven, Latch.isEmpty_iff]

end Sys2Proof.Machine
end

/-! ## The queue of waiting commands under the shared operations (log entries 3 and 20) -/

section

namespace Sys2Proof.Machine

theorem State.foldl_pending {α : Type} {f : State → α → State} (hf : ∀ u x, (f u x).pending = u.pending)
    (xs : List α) (s : State) : (xs.foldl f s).pending = s.pending := by
  induction xs generalizing s with
  | nil => rfl
  | cons x rest ih => exact (ih (f s x)).trans (hf s x)

section
variable (s : State)

/-! ### Operations, accounts and pages (R16, R24, R34 to R36, R82, R91, R105) -/

@[simp] theorem State.completeOp_pending : s.completeOp.pending = s.pending := by
  rw [State.completeOp_eq]

@[simp] theorem State.recomputePool_pending : s.recomputePool.pending = s.pending := by
  rw [State.recomputePool_eq]

@[simp] theorem State.commit_pending (i : Nat) (a : Account) : (s.commit i a).pending = s.pending := by
  rw [State.commit_eq]; rfl

@[simp] theorem State.sentEvent_pending (i k sc : Nat) : (s.sentEvent i k sc).pending = s.pending := by
  unfold State.sentEvent
  split
  · exact s.commit_pending _ _
  · rfl

@[simp] theorem State.schedule_pending (t : Tag) (e : Entry) (st : PageState) (d : Nat) :
    (s.schedule t e st d).pending = s.pending := by
  rw [State.schedule_frame]

@[simp] theorem State.endEntry_pending (k : Ending) (t : Tag) : (s.endEntry k t).pending = s.pending := by
  rw [State.endEntry_frame]

@[simp] theorem State.completeEntry_pending (t : Tag) : (s.completeEntry t).pending = s.pending := rfl

@[simp] theorem State.admitPage_pending (i : Nat) (src : Source) (h : Header) (r : Subscriber) (v : Nat) :
    (s.admitPage i src h r v).pending = s.pending := by
  simp only [State.admitPage, State.admissionEvent, State.takeBlocks_eq, State.allocate_pending,
    State.commit_pending, State.updateRecord_pending]

@[simp] theorem State.moveRefs_pending (old new : Nat) : (s.moveRefs old new).pending = s.pending := by
  rw [State.moveRefs_frame]

@[simp] theorem State.removeRecord_pending (a : Nat) : (s.removeRecord a).pending = s.pending := by
  rw [State.removeRecord_frame]

/-- R68: a text byte reaches the text cells only. -/
theorem State.writeText_pending {s u : State} {bs : List Nat} {k : Nat} {b : Byte}
    (h : s.writeText bs k b = some u) : u.pending = s.pending := by
  obtain ⟨_, -, -, rfl⟩ := State.writeText_eq_some.1 h
  rfl

theorem State.writeTexts_pending {s u : State} {bs : List Nat} {k : Nat} {cs : List Byte}
    (h : s.writeTexts bs k cs = some u) : u.pending = s.pending := by
  induction cs generalizing s k with
  | nil => cases h; rfl
  | cons c rest ih =>
    unfold State.writeTexts at h
    split at h
    · cases h
    · next s' first => exact (ih h).trans (State.writeText_pending first)

/-! ### Lines (R60 to R72) -/

@[simp] theorem State.abortLine_pending (n : LineNo) (c : AbortCause) :
    (s.abortLine n c).pending = s.pending := by
  unfold State.abortLine
  dsimp only
  rw [State.setLine_pending, State.dropLookup_pending]
  split
  · exact s.endEntry_pending _ _
  · rfl

@[simp] theorem State.tickLine_pending (n : LineNo) : (s.tickLine n).pending = s.pending := by
  rcases s.tickLine_cases n with ⟨-, hu⟩ | ⟨-, -, hu⟩ | ⟨-, -, hu⟩ <;> rw [hu]
  · exact s.abortLine_pending n .timeout
  · rfl

@[simp] theorem State.takeLateTick_pending (n : LineNo) : (s.takeLateTick n).pending = s.pending := by
  unfold State.takeLateTick
  split
  · exact State.tickLine_pending _ n
  · rfl

/-! ### The Load Monitor and the Setting Tables (R41, R147 to R152) -/

@[simp] theorem State.moveLevel_pending (c : Chan) (l : Nat) : (s.moveLevel c l).pending = s.pending := by
  rw [State.moveLevel_frame]

@[simp] theorem State.moveLevels_pending (g : Chan → Nat) : (s.moveLevels g).pending = s.pending := by
  rw [State.moveLevels_frame]

@[simp] theorem State.sample_pending (c : Chan) : (s.sample c).pending = s.pending := by
  rw [State.sample_frame]

@[simp] theorem State.takeLateSample_pending (c : Chan) : (s.takeLateSample c).pending = s.pending := by
  unfold State.takeLateSample
  split
  · exact State.sample_pending _ c
  · rfl

@[simp] theorem State.restartMonitor_pending (c : Chan) : (s.restartMonitor c).pending = s.pending :=
  State.moveLevel_pending _ _ _

@[simp] theorem State.toBootLevel_pending : s.toBootLevel.pending = s.pending := by
  simp only [State.toBootLevel, State.moveLevel_pending]

/-- R41: whichever kind of field takes effect, the queue stays. -/
@[simp] theorem State.writeField_pending (f : Field) (v : Nat) : (s.writeField f v).pending = s.pending := by
  rcases s.writeField_cases f v with ⟨-, hw⟩ | ⟨-, hw⟩ | ⟨-, hw⟩ | ⟨-, hw⟩ | ⟨l, -, -, -, hw⟩ | ⟨-, hw⟩ |
    ⟨⟨n, hn⟩, hw⟩ | ⟨-, -, -, -, -, -, hw⟩ <;> rw [hw]
  · rw [State.writeLow_eq, State.recomputePool_pending]
    split <;> rfl
  · exact State.recomputePool_pending _
  · rw [State.writeT1_eq]
    split <;> rfl
  · rfl
  · rw [State.writeEnable_eq]; exact State.moveLevels_pending _ _
  · rw [State.writeBoot_eq]; exact State.moveLevels_pending _ _
  · rw [hn, State.writeThreshold_eq]; rfl
  · rfl

theorem State.writeTableByte_pending (b : Byte) : (s.writeTableByte b).pending = s.pending := by
  unfold State.writeTableByte
  dsimp only
  split
  · rfl
  · split
    · exact State.writeField_pending _ _ _
    · split
      · rfl
      · split
        · rfl
        · split
          · split
            · exact State.writeField_pending _ _ _
            · rfl
          · rfl

/-! ### Frames of the Command Port (R97 to R99, R160 to R165) -/

theorem State.strobe_pending {s u : State} {w cd : Bool} {b : Byte} (h : s.strobe w cd b = some u) :
    u.pending = s.pending := by
  unfold State.strobe at h
  split at h
  · split at h
    · cases h; rfl
    · cases h
  · cases h; rfl

@[simp] theorem State.dropFrame_pending : s.dropFrame.pending = s.pending := by
  unfold State.dropFrame
  split
  · rfl
  · rw [State.setFrame_pending]
    split
    · rfl
    · exact s.endEntry_pending _ _
    · rfl
    · rfl

@[simp] theorem State.abandon_pending : s.abandon.pending = s.pending := by
  unfold State.abandon
  split
  · exact s.dropFrame_pending
  · rfl

@[simp] theorem State.openFrame_pending (c : Cmd) (had : Bool) : (s.openFrame c had).pending = s.pending := by
  unfold State.openFrame
  dsimp only
  split <;> split <;> rfl

@[simp] theorem State.finishSubmit_pending : s.finishSubmit.pending = s.pending := by
  unfold State.finishSubmit
  split
  · rfl
  · split
    · split <;> rfl
    · rfl

@[simp] theorem State.handInPort_pending (f : Frame) : (s.handInPort f).pending = s.pending := by
  unfold State.handInPort
  dsimp only
  split <;> rfl

theorem State.submitText_pending {s u : State} {f : Frame} {b : Byte} (h : s.submitText f b = some u) :
    u.pending = s.pending := by
  unfold State.submitText at h
  split at h
  · split at h
    · exact State.writeText_pending (s := s.setFrame (some f)) h
    · cases h; rfl
  all_goals cases h; rfl

theorem State.submitByte_pending {s t : State} {f : Frame} {b : Byte} (h : s.submitByte f b = .next t) :
    t.pending = s.pending := by
  unfold State.submitByte at h
  split at h
  · cases h
    split <;> rfl
  · split at h
    · cases h; rfl
    · split at h
      · cases h; rw [State.finishSubmit_pending, State.handInPort_pending]
      · split at h
        · cases h
        · next u hu => cases h; exact u.finishSubmit_pending.trans (State.submitText_pending hu)

@[simp] theorem State.completeRead_pending (cd : Bool) : (s.completeRead cd).pending = s.pending := by
  unfold State.completeRead
  split <;> rfl

/-! ### Wheel, channels and answer-backs (R110 to R116, R125 to R132, R136 to R142) -/

theorem State.launch_pending (t : Tag) : (s.launch t).pending = s.pending := by
  unfold State.launch
  split
  · rfl
  · split
    · rfl
    · split
      · exact s.schedule_pending _ _ _ _
      · rw [State.placeLaunch_frame]

theorem State.markOutstanding_pending (c : Chan) : (s.markOutstanding c).pending = s.pending := by
  refine State.foldl_pending (fun u t => ?_) _ s
  unfold State.markExpired
  split
  · split <;> rfl
  · rfl

theorem State.expireHeads_pending (c : Chan) : (s.expireHeads c).pending = s.pending :=
  State.foldl_pending (f := State.expireQueued c) (fun u t => u.endEntry_pending .expired t) _ s

theorem State.answerEmpty_pending (c : Chan) : (s.answerEmpty c).pending = s.pending := by
  unfold State.answerEmpty
  split <;> rfl

theorem State.putOnAir_pending (c : Chan) (t : Tag) (e : Entry) :
    (s.putOnAir c t e).pending = s.pending := rfl

theorem State.returnQueue_pending (c : Chan) : (s.returnQueue c).pending = s.pending := by
  refine State.foldl_pending (fun u t => ?_) _ _
  unfold State.returnQueued
  split
  · exact u.schedule_pending _ _ _ _
  · rfl

theorem State.afterSent_pending (t : Tag) (e : Entry) : (s.afterSent t e).pending = s.pending := by
  unfold State.afterSent
  split
  · exact s.endEntry_pending _ _
  · split
    · exact s.endEntry_pending _ _
    · split
      · exact s.endEntry_pending _ _
      · exact s.schedule_pending _ _ _ _

theorem State.reportSent_pending (c : Chan) (t : Tag) : (s.reportSent c t).pending = s.pending := by
  unfold State.reportSent State.sentLive
  split
  · rw [State.afterSent_pending, State.sentEvent_pending]; rfl
  · rfl

theorem State.failedLive_pending (t : Tag) (e : Entry) : (s.failedLive t e).pending = s.pending := by
  unfold State.failedLive
  split
  · exact s.endEntry_pending _ _
  · split
    · exact s.endEntry_pending _ _
    · exact s.schedule_pending _ _ _ _

theorem State.reportFailed_pending (c : Chan) (t : Tag) : (s.reportFailed c t).pending = s.pending := by
  unfold State.reportFailed
  split
  · exact State.failedLive_pending _ _ _
  · rfl

@[simp] theorem State.beginService_pending : s.beginService.pending = s.pending := by
  rw [State.beginService_frame]

theorem State.declineEntry_pending (t : Tag) (e : Entry) : (s.declineEntry t e).pending = s.pending := by
  unfold State.declineEntry
  split
  · split
    · exact s.endEntry_pending _ _
    · exact State.schedule_pending _ _ _ _ _
  all_goals rfl

theorem State.disposeFrame_pending (n : LineNo) (f : AbFrame) (found : Bool) :
    (s.disposeFrame n f found).pending = s.pending := by
  unfold State.disposeFrame
  split
  · exact s.endEntry_pending _ _
  · exact s.declineEntry_pending _ _
  · rfl
  · rfl
  · split <;> rfl
  · rfl

theorem State.serveSlot_pending (n : LineNo) : (s.serveSlot n).pending = s.pending := by
  unfold State.serveSlot
  split
  · rfl
  · dsimp only
    rw [State.setAbSlot_pending, State.disposeFrame_pending, State.roamFor_frame]

end

end Sys2Proof.Machine
end

/-! ## The queue of waiting commands under the commands of the port (log entry 20) -/

section

namespace Sys2Proof.Machine

/-- The meaning of a command leaves the queue of waiting commands as it is wherever its frame is taken. -/
def LeavesTheQueue (take : Frame → State → State) : Prop := ∀ f s, (take f s).pending = s.pending

/-! ### Code and last byte (R161, R162) -/

section
variable {take : Frame → State → State} (leaves : LeavesTheQueue take)
include leaves

theorem State.takeFrame_pending (f : Frame) (s : State) : (s.takeFrame take f).pending = s.pending := by
  unfold State.takeFrame
  split
  · rfl
  · exact leaves f s

theorem portCode_pending (c : Cmd) (s : State) : (portCode c take s).pending = s.pending := by
  unfold portCode
  split
  · rfl
  · next s0 strobed =>
    rw [← State.strobe_pending strobed]
    dsimp only
    split
    · exact s0.abandon_pending
    · split
      · rw [State.takeFrame_pending leaves, State.openFrame_pending, State.abandon_pending]
      · rw [State.setFrame_pending, State.openFrame_pending, State.abandon_pending]

theorem portLast_pending (c : Cmd) (b : Byte) (s : State) : (portLast c take b s).pending = s.pending := by
  unfold portLast
  split
  · next s0 _ strobed _ =>
    split
    · rw [← State.strobe_pending strobed]
      dsimp only
      split
      · rfl
      · rw [State.takeFrame_pending leaves, State.setFrame_pending]
    · rfl
  · rfl

theorem portRow_pending (c : Cmd) (w : PortWrite) (s : State) : (portRow c take w s).pending = s.pending := by
  cases w with
  | code => exact portCode_pending leaves c s
  | last b => exact portLast_pending leaves c b s

end

/-! ### The directory (Chapter 1) -/

theorem takeAddSubscriber_leaves : LeavesTheQueue takeAddSubscriber := fun f s => by
  unfold takeAddSubscriber
  split
  · rfl
  · split
    · split
      · rfl
      · split
        · rfl
        · split <;> rfl
    · rfl

theorem State.answerRecord_pending (s : State) (r : Option Subscriber) :
    (s.answerRecord r).pending = s.pending := by
  unfold State.answerRecord
  split <;> rfl

theorem takeReadSubscriber_leaves : LeavesTheQueue takeReadSubscriber := fun _ s => s.answerRecord_pending _

theorem takeWriteField_leaves : LeavesTheQueue takeWriteField := fun f s => by
  unfold takeWriteField
  split
  · rfl
  · split
    · rfl
    · rfl
    · split <;> rfl

theorem takeLinkAccount_leaves : LeavesTheQueue takeLinkAccount := fun f s => by
  unfold takeLinkAccount
  split
  · rfl
  · split
    · rfl
    · split
      · rfl
      · split
        · rfl
        · exact s.moveRefs_pending _ _

theorem takeSuspend_leaves : LeavesTheQueue takeSuspend := fun f s => by
  unfold takeSuspend
  split
  · rfl
  · split
    · rfl
    · split <;> rfl

theorem takeResume_leaves : LeavesTheQueue takeResume := fun f s => by
  unfold takeResume
  split
  · rfl
  · split <;> rfl

theorem takeRetire_leaves : LeavesTheQueue takeRetire := fun f s => by
  unfold takeRetire
  split
  · rfl
  · split
    · rfl
    · split
      · rfl
      · dsimp only
        split <;> rfl

theorem takeCursorSet_leaves : LeavesTheQueue takeCursorSet := fun f s => by
  unfold takeCursorSet
  split
  · rfl
  · split <;> rfl

theorem takeCursorRead_leaves : LeavesTheQueue takeCursorRead := fun f s => by
  unfold takeCursorRead
  split <;> exact State.answerRecord_pending _ _

theorem takeCursorReadMarked_leaves : LeavesTheQueue takeCursorReadMarked := fun f s => by
  unfold takeCursorReadMarked
  split <;> exact State.answerRecord_pending _ _

theorem takeMarkMode_leaves : LeavesTheQueue takeMarkMode := fun f s => by
  unfold takeMarkMode
  split <;> rfl

theorem takePartition_leaves : LeavesTheQueue takePartition := fun f s => by
  unfold takePartition
  split
  · rfl
  · split <;> rfl

theorem takeMemoryStatus_leaves : LeavesTheQueue takeMemoryStatus := fun _ _ => rfl

/-! ### Accounts and settlement (Chapters 2 and 10) -/

theorem takeOpenAccount_leaves : LeavesTheQueue takeOpenAccount := fun f s => by
  unfold takeOpenAccount
  split
  · exact s.commit_pending _ _
  · rfl

theorem takeBar_leaves : LeavesTheQueue takeBar := fun f s => by
  unfold takeBar
  split <;> rfl

theorem takeUnbar_leaves : LeavesTheQueue takeUnbar := fun f s => by
  unfold takeUnbar
  split <;> rfl

theorem takeAdjustBalance_leaves : LeavesTheQueue takeAdjustBalance := fun f s => by
  unfold takeAdjustBalance
  dsimp only
  split
  · rfl
  · exact s.commit_pending _ _

theorem takeWriteLimit_leaves : LeavesTheQueue takeWriteLimit := fun f s => by
  unfold takeWriteLimit
  split
  · rfl
  · exact s.commit_pending _ _

theorem takeCloseAccount_leaves : LeavesTheQueue takeCloseAccount := fun f s => by
  unfold takeCloseAccount
  dsimp only
  split
  · rfl
  · split <;> rfl

theorem takeReadAccount_leaves : LeavesTheQueue takeReadAccount := fun _ _ => rfl

theorem takeSettleBegin_leaves : LeavesTheQueue takeSettleBegin := fun _ _ => rfl

theorem takeSettleRead_leaves : LeavesTheQueue takeSettleRead := fun f s => by
  unfold takeSettleRead
  split <;> rfl

/-! ### Tables and the Load Monitor (Chapters 3 and 9) -/

theorem takeTablePointer_leaves : LeavesTheQueue takeTablePointer := fun f s => by
  unfold takeTablePointer
  split <;> rfl

theorem takeTableRead_leaves : LeavesTheQueue takeTableRead := fun f s => by
  unfold takeTableRead
  split <;> rfl

/-- R41: the data bytes are applied one after another, and each leaves the queue. -/
theorem takeTableWrite_leaves : LeavesTheQueue takeTableWrite := fun f s => by
  unfold takeTableWrite
  split
  · exact State.foldl_pending State.writeTableByte_pending _ s
  · rfl

theorem takeMonitorEnable_leaves : LeavesTheQueue takeMonitorEnable := fun f s => by
  rw [takeMonitorEnable, State.answer_pending, State.restartMonitor_pending, State.restartMonitor_pending]

theorem takeMonitorDisable_leaves : LeavesTheQueue takeMonitorDisable := fun f s => by
  unfold takeMonitorDisable
  split
  · exact State.toBootLevel_pending _
  · rfl

theorem takeMonitorStatus_leaves : LeavesTheQueue takeMonitorStatus := fun _ _ => rfl

/-! ### Lines, channels and answer-backs (R75, R76, R132, R133, R144) -/

theorem onLine_pending {g : LineNo → State → State} (hg : ∀ n u, (g n u).pending = u.pending) (f : Frame)
    (s : State) : (onLine f s g).pending = s.pending := by
  unfold onLine
  split
  · rfl
  · exact hg _ s

theorem onChan_pending {g : Chan → State → State} (hg : ∀ c u, (g c u).pending = u.pending) (f : Frame)
    (s : State) : (onChan f s g).pending = s.pending := by
  unfold onChan
  split
  · rfl
  · exact hg _ s

theorem onSlot_pending {g : LineNo → State → State} (hg : ∀ n u, (g n u).pending = u.pending) (f : Frame)
    (s : State) : (onSlot f s g).pending = s.pending := by
  unfold onSlot
  split
  · rfl
  · exact hg _ s

theorem takeLineEnable_leaves : LeavesTheQueue takeLineEnable :=
  onLine_pending fun n u => by split <;> rfl

theorem takeLineDisable_leaves : LeavesTheQueue takeLineDisable :=
  onLine_pending fun n u => by
    split
    · rfl
    · exact u.abortLine_pending n .disable

theorem takeLineFlush_leaves : LeavesTheQueue takeLineFlush :=
  onLine_pending fun n u => by
    split
    · rfl
    · exact u.abortLine_pending n .flush

theorem takeLineStatus_leaves : LeavesTheQueue takeLineStatus := onLine_pending fun _ _ => rfl

theorem takeLineClear_leaves : LeavesTheQueue takeLineClear := fun f =>
  onLine_pending (g := fun n u => (u.setLine n ((u.line n).clearItems (f.byte 1))).answer .ok [])
    (fun _ _ => rfl) f

theorem takeChannelOpen_leaves : LeavesTheQueue takeChannelOpen := onChan_pending fun _ _ => rfl

theorem takeChannelDrain_leaves : LeavesTheQueue takeChannelDrain :=
  onChan_pending fun c u => by split <;> rfl

theorem takeChannelClose_leaves : LeavesTheQueue takeChannelClose :=
  onChan_pending fun c u => u.returnQueue_pending c

theorem takeChannelStatus_leaves : LeavesTheQueue takeChannelStatus := onChan_pending fun _ _ => rfl

theorem takeChannelClear_leaves : LeavesTheQueue takeChannelClear := onChan_pending fun _ _ => rfl

theorem takeAnswerBackStatus_leaves : LeavesTheQueue takeAnswerBackStatus := onSlot_pending fun _ _ => rfl

theorem takeAnswerBackClear_leaves : LeavesTheQueue takeAnswerBackClear := fun f =>
  onSlot_pending (g := fun n u => (u.setAbSlot n ((u.abSlot n).clearItems (f.byte 1))).answer .ok [])
    (fun _ _ => rfl) f

/-! ### Pages and the clock (R94, R95, R100, R103) -/

theorem State.answerGone_pending (s : State) (t : Tag) : (s.answerGone t).pending = s.pending := by
  unfold State.answerGone
  split <;> rfl

theorem takePageStatus_leaves : LeavesTheQueue takePageStatus := fun f s => by
  unfold takePageStatus
  split
  · rfl
  · exact s.answerGone_pending _

theorem takeCancelPage_leaves : LeavesTheQueue takeCancelPage := fun f s => by
  unfold takeCancelPage
  split
  · exact s.answerGone_pending _
  · split
    · rfl
    · exact s.endEntry_pending _ _
    · exact s.endEntry_pending _ _
    · exact s.endEntry_pending _ _
    · rfl

theorem takePurgeTraffic_leaves : LeavesTheQueue takePurgeTraffic := fun _ _ => rfl

theorem takeSetClock_leaves : LeavesTheQueue takeSetClock := fun _ _ => rfl

theorem takeReadClock_leaves : LeavesTheQueue takeReadClock := fun _ _ => rfl

/-! ### The port's own commands (R160, R164, R166) -/

theorem takeSelSubscriber_leaves : LeavesTheQueue takeSelSubscriber := fun f s => by
  unfold takeSelSubscriber
  split
  · rfl
  · split <;> rfl

theorem takeSelAccount_leaves : LeavesTheQueue takeSelAccount := fun f s => by
  unfold takeSelAccount
  split
  · rfl
  · split <;> rfl

theorem takeSelPage_leaves : LeavesTheQueue takeSelPage := fun f s => by
  unfold takeSelPage
  split <;> rfl

theorem takeSelClear_leaves : LeavesTheQueue takeSelClear := fun _ _ => rfl

theorem takePortWidth_leaves : LeavesTheQueue takePortWidth := fun f s => by
  unfold takePortWidth
  split
  · rfl
  · split <;> rfl

theorem takeNoticeEnable_leaves : LeavesTheQueue takeNoticeEnable := fun _ _ => rfl

theorem takeNoticeClear_leaves : LeavesTheQueue takeNoticeClear := fun _ _ => rfl

theorem takeNoticeRead_leaves : LeavesTheQueue takeNoticeRead := fun _ _ => rfl

end Sys2Proof.Machine
end

/-! ## The queue of waiting commands and the steps (log entries 3 and 20) -/

section

namespace Sys2Proof.Machine

section
variable {s t : State}

/-! ### Resets and operations that complete (R3, R10, R16, R17, R100, R101, R167) -/

theorem State.portReset_pending (s : State) : s.portReset.pending = s.pending := by
  unfold State.portReset
  exact s.dropFrame_pending

theorem execAutoclearComplete_pending (h : execAutoclearComplete s = .next t) : t.pending = s.pending := by
  unfold execAutoclearComplete at h
  split at h <;> cases h <;> rfl

theorem execAdditionComplete_pending (h : execAdditionComplete s = .next t) : t.pending = s.pending := by
  unfold execAdditionComplete at h
  split at h <;> cases h
  · exact State.completeOp_pending _
  · rfl

theorem execRemovalComplete_pending (h : execRemovalComplete s = .next t) : t.pending = s.pending := by
  unfold execRemovalComplete at h
  split at h <;> cases h
  · rw [State.completeOp_pending]
    split <;> exact s.removeRecord_pending _
  · rfl

theorem execPartitionComplete_pending (h : execPartitionComplete s = .next t) : t.pending = s.pending := by
  unfold execPartitionComplete at h
  split at h <;> cases h
  · rw [State.completeOp_pending, State.recomputePool_pending]
  · rfl

theorem State.purgeIndex_pending (s : State) (i : Nat) : (s.purgeIndex i).pending = s.pending := by
  unfold State.purgeIndex State.purgeEntry
  split
  · rfl
  · dsimp only
    split <;> exact s.endEntry_pending _ _

theorem execPurgeSlot_pending (h : execPurgeSlot s = .next t) : t.pending = s.pending := by
  unfold execPurgeSlot at h
  split at h <;> cases h
  · split
    · exact s.purgeIndex_pending _
    · rfl
  · rfl

theorem execPurgeComplete_pending (h : execPurgeComplete s = .next t) : t.pending = s.pending := by
  unfold execPurgeComplete at h
  split at h <;> cases h
  · split
    · exact s.completeOp_pending
    · rfl
  · rfl

/-! ### The Office Clock and the Retry Wheel (R102, R107, R108, R110) -/

theorem State.tickReaches_pending (late : List TickPart) (s : State) (p : TickPart) :
    (s.tickReaches late p).pending = s.pending := by
  unfold State.tickReaches
  split
  · split
    · rfl
    · exact s.tickLine_pending _
  · split
    · rfl
    · exact s.sample_pending _

theorem State.countTick_pending (s : State) : s.countTick.pending = s.pending := by
  rw [State.countTick, State.foldl_pending (State.tickReaches_pending _), State.advanceClock_pending]
  simp only [State.takeLate, State.takeLateTick_pending, State.takeLateSample_pending]

theorem State.wheelVisit_pending (s : State) (w : Nat) : (s.wheelVisit w).pending = s.pending := by
  unfold State.wheelVisit
  split
  · rfl
  · split
    · rfl
    · split
      · rfl
      · split
        · rfl
        · split <;> rfl

theorem State.expireVisited_pending (s : State) (w : Nat) : (s.expireVisited w).pending = s.pending := by
  unfold State.expireVisited
  split
  · rfl
  · split
    · rfl
    · split
      · exact State.endEntry_pending _ _ _
      · rfl

theorem State.endWindow_pending (s : State) (w : Nat) : (s.endWindow w).pending = s.pending := by
  unfold State.endWindow
  split
  · rfl
  · split
    · rfl
    · split
      · split
        · exact State.endEntry_pending _ _ _
        · rfl
      · rfl

theorem execLaunch_pending (h : execLaunch s = .next t) : t.pending = s.pending := by
  unfold execLaunch at h
  split at h <;> cases h
  · exact State.launch_pending _ _
  · rfl

/-! ### The Intake Lines and the Admission Unit (R60 to R74, R79, R82) -/

theorem State.byteArrives_pending (s : State) (n : LineNo) (b : Byte) :
    (s.byteArrives n b).pending = s.pending := by
  unfold State.byteArrives
  split
  · rfl
  · split
    · rfl
    · exact State.abortLine_pending _ _ _

theorem State.examineIdle_pending (s : State) (n : LineNo) : (s.examineIdle n).pending = s.pending := by
  unfold State.examineIdle
  split
  · split <;> rfl
  · rfl

theorem State.handIn_pending (s : State) (n : LineNo) : (s.handIn n).pending = s.pending := by
  unfold State.handIn
  dsimp only
  split <;> rfl

theorem State.takeHeaderByte_pending (s : State) (n : LineNo) : (s.takeHeaderByte n).pending = s.pending := by
  unfold State.takeHeaderByte
  split
  · dsimp only
    split
    · exact State.handIn_pending _ n
    · rfl
  · rfl

theorem State.takeTextByte_pending {n : LineNo} (h : s.takeTextByte n = .next t) : t.pending = s.pending := by
  unfold State.takeTextByte at h
  split at h
  · split at h
    · cases h; rfl
    · split at h
      · cases h
      · next u written => cases h; exact (u.setLine_pending n _).trans (State.writeText_pending written)
  · cases h; rfl

theorem State.takeCheckByte_pending (s : State) (n : LineNo) : (s.takeCheckByte n).pending = s.pending := by
  unfold State.takeCheckByte
  split
  · split
    · rfl
    · dsimp only
      split
      · rfl
      · exact s.endEntry_pending _ _
  · rfl

theorem State.takeSkipByte_pending (s : State) (n : LineNo) : (s.takeSkipByte n).pending = s.pending := by
  unfold State.takeSkipByte
  split <;> rfl

theorem execReceiptFetch_pending {n : LineNo} {sending : Bool} (h : execReceiptFetch n sending s = .next t) :
    t.pending = s.pending := by
  cases h
  split
  · rfl
  · split <;> rfl

theorem State.refuseSource_pending (s : State) (src : Source) (hdr : Header) (reason : Reason) :
    (s.refuseSource src hdr reason).pending = s.pending := by
  unfold State.refuseSource
  split
  · rfl
  · split
    · exact State.finishSubmit_pending _
    · rfl

theorem State.bindSource_pending {src : Source} {hdr : Header} {tag : Tag} {serial : Nat} {bs : List Nat}
    (h : s.bindSource src hdr tag serial bs = .next t) : t.pending = s.pending := by
  unfold State.bindSource at h
  split at h
  · cases h; rfl
  · split at h
    · cases h; rfl
    · split at h
      · cases h
      · next u written =>
        cases h
        exact u.finishSubmit_pending.trans (State.writeTexts_pending (s := s.setOutcome ..) written)

theorem State.answerRequest_pending {src : Source} {hdr : Header} (h : s.answerRequest src hdr = .next t) :
    t.pending = s.pending := by
  unfold State.answerRequest at h
  split at h
  · cases h; exact s.refuseSource_pending _ _ _
  · exact (State.bindSource_pending h).trans (s.admitPage_pending _ _ _ _ _)

theorem execAdmission_pending (h : execAdmission s = .next t) : t.pending = s.pending := by
  unfold execAdmission at h
  split at h
  · exact State.answerRequest_pending (s := s.popLookup) h
  · cases h; rfl

/-! ### Pulls and answer-backs (R125, R135 to R137, R171) -/

theorem State.pullQueue_pending {c : Chan} (h : s.pullQueue c = .next t) : t.pending = s.pending := by
  unfold State.pullQueue State.servePage at h
  dsimp only at h
  split at h
  · cases h; rw [State.answerEmpty_pending, State.expireHeads_pending]
  · split at h
    · split at h
      · cases h
      · cases h; rw [State.setEnc_pending, State.putOnAir_pending, State.expireHeads_pending]
    · cases h; rw [State.expireHeads_pending]

theorem State.answerPull_pending {c : Chan} (h : s.answerPull c = .next t) : t.pending = s.pending := by
  unfold State.answerPull at h
  split at h
  · cases h; rfl
  · split at h
    · cases h; rfl
    · exact State.pullQueue_pending h

theorem execPull_pending {c : Chan} {sending : Bool} (h : execPull c sending s = .next t) :
    t.pending = s.pending := by
  unfold execPull at h
  split at h
  · cases h; rfl
  · split at h
    · cases h; rfl
    · exact (State.answerPull_pending h).trans (s.markOutstanding_pending c)

theorem execAnswerBackFrame_pending {n : LineNo} {marked : Bool} {b : Byte}
    (h : execAnswerBackFrame n marked b s = .next t) : t.pending = s.pending := by
  cases h
  split <;> rfl

theorem execServiceAnswer_pending (h : execServiceAnswer s = .next t) : t.pending = s.pending := by
  unfold execServiceAnswer at h
  split at h <;> cases h
  · rw [State.beginService_pending, State.serveSlot_pending, State.popLookup_pending]
  · rfl

/-! ### The bytes of the Command Port (R97, R98, R160 to R163) -/

theorem execResultRead_pending {cd : Bool} (h : execResultRead cd s = .next t) : t.pending = s.pending := by
  cases h
  split
  · split
    · exact State.completeRead_pending _ cd
    · rfl
  · exact State.completeRead_pending _ cd

theorem execPendingNibble_pending {write cd : Bool} {v : BitVec 4}
    (h : execPendingNibble write cd v s = .next t) : t.pending = s.pending := by
  cases h
  split
  · split <;> rfl
  · rfl

theorem execArgumentByte_pending {b : Byte} (h : execArgumentByte b s = .next t) : t.pending = s.pending := by
  unfold execArgumentByte at h
  split at h
  · cases h; rfl
  · next s0 strobed =>
    have same := State.strobe_pending strobed
    split at h
    · cases h; exact same
    · split at h
      · cases h; rfl
      · split at h
        · cases h; exact same
        · split at h
          · exact (State.submitByte_pending h).trans same
          · cases h; exact same

theorem execUnknownCommandCode_pending {b : Byte} (h : execUnknownCommandCode b s = .next t) :
    t.pending = s.pending := by
  cases h
  split
  · rfl
  · split
    · rfl
    · next s0 strobed =>
      rw [← State.strobe_pending strobed]
      split <;> exact s0.abandon_pending

theorem execSubmitPage_pending {w : PortWrite} (h : execSubmitPage w s = .next t) : t.pending = s.pending := by
  cases w with
  | code => cases h; exact portCode_pending (take := fun _ u => u) (fun _ _ => rfl) _ s
  | last b =>
    unfold execSubmitPage State.submitLast at h
    dsimp only at h
    split at h
    · next strobed _ =>
      split at h
      · exact (State.submitByte_pending h).trans (State.strobe_pending strobed)
      · cases h; rfl
    · cases h; rfl

/-! ### Every command (log entry 20) -/

/-- The step of a command row that answers. -/
theorem portRow_next_pending {c : Cmd} {take : Frame → State → State} {w : PortWrite}
    (leaves : LeavesTheQueue take) (h : (Host.Outcome.next (portRow c take w s) : Res) = .next t) :
    t.pending = s.pending := by
  cases h; exact portRow_pending leaves c w s

/-- The step of a command without arguments that answers. -/
theorem portCode_next_pending {c : Cmd} {take : Frame → State → State} (leaves : LeavesTheQueue take)
    (h : (Host.Outcome.next (portCode c take s) : Res) = .next t) : t.pending = s.pending := by
  cases h; exact portCode_pending leaves c s

end

/-- Settles O2, by the command: each meaning goes through the operations above. -/
theorem meaningsLeaveTheQueue : Obligations.MeaningsLeaveTheQueue := by
  intro i s t h
  cases i with
  | powerOn => cases h; rfl
  | autoclearComplete => exact execAutoclearComplete_pending h
  | portReset => cases h; exact s.portReset_pending
  | tick =>
    cases h
    split
    · rfl
    · exact s.countTick_pending
  | levelMove c => cases h; exact s.takeLateSample_pending c
  | wheelVisit w => cases h; exact s.wheelVisit_pending w
  | deadlineExpired w => cases h; exact s.expireVisited_pending w
  | windowEnd w => cases h; exact s.endWindow_pending w
  | launch => exact execLaunch_pending h
  | intakeByte n b =>
    cases h
    split
    · rfl
    · exact s.byteArrives_pending n b
  | idleByte n => cases h; exact s.examineIdle_pending n
  | headerByte n => cases h; exact s.takeHeaderByte_pending n
  | admission => exact execAdmission_pending h
  | textByte n => exact State.takeTextByte_pending h
  | checkByte n => cases h; exact s.takeCheckByte_pending n
  | skipByte n => cases h; exact s.takeSkipByte_pending n
  | idleTimeout n => cases h; exact s.takeLateTick_pending n
  | receiptFetch n sending => exact execReceiptFetch_pending h
  | additionComplete => exact execAdditionComplete_pending h
  | removalComplete => exact execRemovalComplete_pending h
  | partitionComplete => exact execPartitionComplete_pending h
  | purgeSlot => exact execPurgeSlot_pending h
  | purgeComplete => exact execPurgeComplete_pending h
  | pull c sending => exact execPull_pending h
  | sent c slot gen =>
    cases h
    split
    · rfl
    · exact s.reportSent_pending c _
  | failed c slot gen =>
    cases h
    split
    · rfl
    · exact s.reportFailed_pending c _
  | answerBackFrame n marked b => exact execAnswerBackFrame_pending h
  | answerBackService =>
    cases h
    split
    · rfl
    · exact s.beginService_pending
  | serviceAnswer => exact execServiceAnswer_pending h
  | resultRead cd => exact execResultRead_pending h
  | argumentByte b => exact execArgumentByte_pending h
  | unknownCommandCode b => exact execUnknownCommandCode_pending h
  | selSubscriber w => exact portRow_next_pending takeSelSubscriber_leaves h
  | selAccount w => exact portRow_next_pending takeSelAccount_leaves h
  | selPage w => exact portRow_next_pending takeSelPage_leaves h
  | selClear => exact portCode_next_pending takeSelClear_leaves h
  | portWidth w => exact portRow_next_pending takePortWidth_leaves h
  | noticeEnable w => exact portRow_next_pending takeNoticeEnable_leaves h
  | noticeClear w => exact portRow_next_pending takeNoticeClear_leaves h
  | noticeRead => exact portCode_next_pending takeNoticeRead_leaves h
  | addSubscriber w => exact portRow_next_pending takeAddSubscriber_leaves h
  | readSubscriber => exact portCode_next_pending takeReadSubscriber_leaves h
  | writeField w => exact portRow_next_pending takeWriteField_leaves h
  | linkAccount => exact portCode_next_pending takeLinkAccount_leaves h
  | suspend => exact portCode_next_pending takeSuspend_leaves h
  | resume => exact portCode_next_pending takeResume_leaves h
  | retire => exact portCode_next_pending takeRetire_leaves h
  | cursorSet w => exact portRow_next_pending takeCursorSet_leaves h
  | cursorRead => exact portCode_next_pending takeCursorRead_leaves h
  | cursorReadMarked => exact portCode_next_pending takeCursorReadMarked_leaves h
  | markMode w => exact portRow_next_pending takeMarkMode_leaves h
  | partition w => exact portRow_next_pending takePartition_leaves h
  | memoryStatus => exact portCode_next_pending takeMemoryStatus_leaves h
  | openAccount w => exact portRow_next_pending takeOpenAccount_leaves h
  | bar => exact portCode_next_pending takeBar_leaves h
  | unbar => exact portCode_next_pending takeUnbar_leaves h
  | adjustBalance w => exact portRow_next_pending takeAdjustBalance_leaves h
  | writeLimit w => exact portRow_next_pending takeWriteLimit_leaves h
  | closeAccount => exact portCode_next_pending takeCloseAccount_leaves h
  | readAccount => exact portCode_next_pending takeReadAccount_leaves h
  | tablePointer w => exact portRow_next_pending takeTablePointer_leaves h
  | tableRead w => exact portRow_next_pending takeTableRead_leaves h
  | tableWrite w => exact portRow_next_pending takeTableWrite_leaves h
  | lineEnable w => exact portRow_next_pending takeLineEnable_leaves h
  | lineDisable w => exact portRow_next_pending takeLineDisable_leaves h
  | lineFlush w => exact portRow_next_pending takeLineFlush_leaves h
  | lineStatus w => exact portRow_next_pending takeLineStatus_leaves h
  | lineClear w => exact portRow_next_pending takeLineClear_leaves h
  | pageStatus => exact portCode_next_pending takePageStatus_leaves h
  | cancelPage => exact portCode_next_pending takeCancelPage_leaves h
  | submitPage w => exact execSubmitPage_pending h
  | purgeTraffic => exact portCode_next_pending takePurgeTraffic_leaves h
  | setClock w => exact portRow_next_pending takeSetClock_leaves h
  | readClock => exact portCode_next_pending takeReadClock_leaves h
  | channelOpen w => exact portRow_next_pending takeChannelOpen_leaves h
  | channelDrain w => exact portRow_next_pending takeChannelDrain_leaves h
  | channelClose w => exact portRow_next_pending takeChannelClose_leaves h
  | channelStatus w => exact portRow_next_pending takeChannelStatus_leaves h
  | channelClear w => exact portRow_next_pending takeChannelClear_leaves h
  | answerBackStatus w => exact portRow_next_pending takeAnswerBackStatus_leaves h
  | answerBackClear w => exact portRow_next_pending takeAnswerBackClear_leaves h
  | monitorEnable => exact portCode_next_pending takeMonitorEnable_leaves h
  | monitorDisable => exact portCode_next_pending takeMonitorDisable_leaves h
  | monitorStatus => exact portCode_next_pending takeMonitorStatus_leaves h
  | settleBegin => exact portCode_next_pending takeSettleBegin_leaves h
  | settleRead => exact portCode_next_pending takeSettleRead_leaves h
  | pendingNibble write cd v => exact execPendingNibble_pending h
  | unknownReportKind c kind slot gen => cases h; split <;> rfl
  | markedByteRestart n b => cases h; split <;> rfl

/-- Settles O1: the two cases of the queue. -/
theorem stepTakesTheFront : Obligations.StepTakesTheFront := by
  refine ⟨fun s c rest waiting => ?_, fun s empty => ?_⟩
  · rw [step, waiting]
  · rw [step, empty]

end Sys2Proof.Machine
end

/-! ## The bytes of an Intake Line (R60 to R65, R67, R79, R81) -/

section

namespace Sys2Proof.Machine

/-! ### The FIFO and its fill hold (R60, R62) -/

/-- R62: the fill hold after the count `k`, which the hysteresis lets fall at eight below the threshold. The
two forms agree wherever the fall is in reach: the count is 1 or more, or the threshold is 8 or more. -/
theorem fillHoldOf_eq {k h : Nat} (hold : Bool) (reach : 0 < k ∨ 8 ≤ h) :
    fillHoldOf k h hold = if h ≤ k then true else if k + 8 ≤ h then false else hold := by
  have falls : k ≤ h - 8 ↔ k + 8 ≤ h ∨ k = 0 ∧ h < 8 := by omega
  have below : ¬ (k = 0 ∧ h < 8) := by omega
  simp only [fillHoldOf, falls, below, or_false]

/-- R60, R62: the line whose head byte is taken, `rest` being the bytes behind it. -/
theorem Line.takeHead_eq {l : Line} {b : Byte} {rest : List Byte} {h : Nat} (fifo : l.fifo = b :: rest)
    (low : 8 ≤ h) :
    l.takeHead h =
      { l with
        fifo := rest
        fillHold := if h ≤ rest.length then true else if rest.length + 8 ≤ h then false else l.fillHold } := by
  rw [Line.takeHead, Line.refill, fifo, List.tail_cons, fillHoldOf_eq _ (.inr low)]

/-- R60, R62: the line with the byte `b` at the tail of its FIFO. -/
theorem Line.receive_eq (l : Line) (b : Byte) (h : Nat) :
    l.receive b h =
      { l with
        fifo := l.fifo ++ [b]
        fillHold := if h ≤ l.fifo.length + 1 then true
          else if l.fifo.length + 1 + 8 ≤ h then false else l.fillHold } := by
  rw [Line.receive, Line.refill, List.length_append, List.length_singleton,
    fillHoldOf_eq _ (.inl (Nat.succ_pos _))]

/-! ### A byte arrives (R60, R61) -/

section
variable {s : State} {n : LineNo} {b : Byte}

theorem exec_intakeByte (clear : s.op ≠ some .autoclear) :
    exec (.intakeByte n b) s = .next (s.byteArrives n b) :=
  congrArg Host.Outcome.next (if_neg clear)

theorem State.byteArrives_disabled (off : (s.line n).state = .disabled) : s.byteArrives n b = s :=
  if_pos off

theorem State.byteArrives_room (on : (s.line n).state ≠ .disabled) (room : (s.line n).fifo.length < 64) :
    s.byteArrives n b = s.setLine n ((s.line n).receive b (s.threshold n)) :=
  (if_neg on).trans (if_pos room)

theorem State.byteArrives_full (on : (s.line n).state ≠ .disabled) (full : (s.line n).fifo.length = 64) :
    s.byteArrives n b = (s.setLine n { s.line n with overflow := true }).abortLine n .fifoOverrun :=
  (if_neg on).trans (if_neg (Nat.not_lt.2 full.ge))

/-! ### The head of the FIFO in IDLE (R64) -/

theorem Line.startAtHead_eq {l : Line} {rest : List Byte} (idle : l.state = .idle) (fifo : l.fifo = b :: rest) :
    l.startAtHead = decide (b = 0x7E) := by
  simp [Line.startAtHead, idle, fifo]

/-- R24, R64: the head byte waits exactly where it is a START and the receipt slot is full or the watermark
hold is up. -/
theorem State.headHeld_iff {rest : List Byte} (idle : (s.line n).state = .idle)
    (fifo : (s.line n).fifo = b :: rest) :
    ((s.line n).heldForReceipt || s.heldForPool n) = true ↔
      b = 0x7E ∧ ((s.line n).receipt ≠ none ∨ s.poolHold = true) := by
  rw [Line.heldForReceipt, State.heldForPool, Line.startAtHead_eq idle fifo, ← Bool.and_or_distrib_left,
    Bool.and_eq_true, decide_eq_true_eq, Bool.or_eq_true, Option.isSome_iff_ne_none]

theorem State.examineIdle_held {rest : List Byte} (idle : (s.line n).state = .idle)
    (fifo : (s.line n).fifo = b :: rest)
    (held : ((s.line n).heldForReceipt || s.heldForPool n) = true) : s.examineIdle n = s := by
  simp only [State.examineIdle, idle, fifo]
  exact if_pos held

theorem State.examineIdle_taken {rest : List Byte} (idle : (s.line n).state = .idle)
    (fifo : (s.line n).fifo = b :: rest)
    (free : ¬ ((s.line n).heldForReceipt || s.heldForPool n) = true) :
    s.examineIdle n = s.setLine n ((s.line n).takeIdle b (s.threshold n)) := by
  simp only [State.examineIdle, idle, fifo]
  exact if_neg free

end

/-- R59, R64: a START that is held holds the line. -/
theorem State.lineHold_of_held {s : State} {n : LineNo}
    (held : ((s.line n).heldForReceipt || s.heldForPool n) = true) : s.lineHold n = true := by
  rw [State.lineHold, Bool.or_assoc, held, Bool.or_true]

/-- Settles O25: the three cases of a byte that arrives, and the three of the byte at the head in IDLE. -/
theorem intakeBytesAndIdle : Obligations.IntakeBytesAndIdle := by
  refine ⟨fun s n b clear => ?_, fun s n b rest idle fifo => ?_⟩
  · intro l count h
    rw [exec_intakeByte clear]
    refine ⟨fun off => ?_, fun on room => ?_, fun on full => ?_⟩
    · rw [State.byteArrives_disabled off]
    · rw [State.byteArrives_room on room, Line.receive_eq]
    · rw [State.byteArrives_full on full]
  · intro l h taken low
    have head : l.takeHead h = taken := Line.takeHead_eq fifo low
    have heldIff := State.headHeld_iff idle fifo
    refine ⟨fun junk => ?_, fun start empty down => ?_, fun start full => ?_⟩
    · have free := fun held => junk (heldIff.1 held).1
      refine congrArg Host.Outcome.next ((State.examineIdle_taken idle fifo free).trans ?_)
      rw [Line.takeIdle, if_neg junk, head]
      rfl
    · have free := fun held => (heldIff.1 held).2.elim (· empty) (by simp [down])
      refine congrArg Host.Outcome.next ((State.examineIdle_taken idle fifo free).trans ?_)
      rw [Line.takeIdle, if_pos start, head]
      rfl
    · have held := heldIff.2 ⟨start, full⟩
      exact ⟨congrArg Host.Outcome.next (State.examineIdle_held idle fifo held), State.lineHold_of_held held⟩

end Sys2Proof.Machine
end

/-! ## The header of a page and the routing of its address (R65, R67, R79, R81) -/

section

namespace Sys2Proof.Machine

/-! ### The routing ranges (R81) -/

/-- R81: range `r` is enabled and holds address `a`, by the addresses of its fields (R172). -/
theorem State.rangeMatches_iff {s : State} {a r : Nat} :
    s.rangeMatches a r = true ↔
      s.setting (0xC0 + 16 * r) = 1 ∧ s.setting (0xC1 + 16 * r) ≤ a ∧ a ≤ s.setting (0xC4 + 16 * r) := by
  have base : routingAddr r 1 = 0xC1 + 16 * r := by rw [routingAddr]; omega
  have limit : routingAddr r 4 = 0xC4 + 16 * r := by rw [routingAddr]; omega
  rw [State.rangeMatches, base, limit, Bool.and_eq_true, Bool.and_eq_true, decide_eq_true_eq,
    decide_eq_true_eq, decide_eq_true_eq, and_assoc]
  rfl

theorem dispositionOf_eq (code peer : Nat) :
    dispositionOf code peer =
      if code = 0 then .localOffice else if code = 1 then .foreign peer else .blocked := by
  match code with
  | 0 => rfl
  | 1 => rfl
  | _ + 2 => rfl

/-- R81: the first range that holds the address decides. -/
theorem State.disposition_of_first {s : State} {a r : Nat} (top : r < 8) (hit : s.rangeMatches a r = true)
    (first : ∀ q, q < r → ¬ s.rangeMatches a q = true) :
    s.disposition a = dispositionOf (s.setting (0xC7 + 16 * r)) (s.setting (0xC8 + 16 * r)) := by
  have found : (List.range 8).find? (fun r => s.rangeMatches a r) = some r :=
    List.find?_range_eq_some.2 ⟨hit, List.mem_range.2 top, fun q below => by simpa using first q below⟩
  have code : routingAddr r 7 = 0xC7 + 16 * r := by rw [routingAddr]; omega
  have peer : routingAddr r 8 = 0xC8 + 16 * r := by rw [routingAddr]; omega
  simp only [State.disposition, found, code, peer]

/-- R81: the default decides where no range holds the address. -/
theorem State.disposition_of_none {s : State} {a : Nat} (missed : ∀ r, r < 8 → ¬ s.rangeMatches a r = true) :
    s.disposition a = dispositionOf (s.setting 0x140) (s.setting 0x141) := by
  have found : (List.range 8).find? (fun r => s.rangeMatches a r) = none :=
    List.find?_range_eq_none.2 fun r top => by simpa using missed r top
  simp only [State.disposition, found]

/-! ### The checks made at the arrival of a request (R79, R80) -/

section
variable {s : State} {h : Header}

theorem State.arrivalRefusal_long (long : 240 < h.len) : s.arrivalRefusal h = some (.length, 0) :=
  if_pos long

theorem State.arrivalRefusal_foreign {peer : Nat} (short : h.len ≤ 240)
    (away : s.disposition h.addr = .foreign peer) : s.arrivalRefusal h = some (.foreign, peer) := by
  rw [State.arrivalRefusal, if_neg (Nat.not_lt.2 short), away]

theorem State.arrivalRefusal_blocked (short : h.len ≤ 240) (barred : s.disposition h.addr = .blocked) :
    s.arrivalRefusal h = some (.blocked, 0) := by
  rw [State.arrivalRefusal, if_neg (Nat.not_lt.2 short), barred]

theorem State.arrivalRefusal_local (short : h.len ≤ 240) (here : s.disposition h.addr = .localOffice) :
    s.arrivalRefusal h = none := by
  rw [State.arrivalRefusal, if_neg (Nat.not_lt.2 short), here]

end

/-! ### A header byte (R65) -/

/-- R169: the last of the five header bytes is the declared length. -/
theorem headerOf_len {bs : List Byte} (four : bs.length = 4) (b : Byte) : (headerOf (bs ++ [b])).len = b.toNat := by
  show ((bs ++ [b]).getD 4 0).toNat = b.toNat
  rw [List.getD_append_right _ _ _ _ four.le, four, Nat.sub_self, List.getD_cons_zero]

theorem Line.takeHeader_eq {l : Line} {b : Byte} {rest : List Byte} {h : Nat} (fifo : l.fifo = b :: rest)
    (low : 8 ≤ h) :
    l.takeHeader b h =
      { l with
        fifo := rest
        fillHold := if h ≤ rest.length then true else if rest.length + 8 ≤ h then false else l.fillHold
        header := l.header ++ [b], sum := l.sum + b, timer := 0 } := by
  rw [Line.takeHeader, Line.takeHead_eq fifo low, Line.restart]

section
variable {s : State} {n : LineNo} {b : Byte} {rest : List Byte} (header : (s.line n).state = .header)
  (fifo : (s.line n).fifo = b :: rest)
include header fifo

/-- R65: a byte that is not the fifth only joins the header store. -/
theorem exec_headerByte_joins (more : (s.line n).header.length ≠ 4) :
    exec (.headerByte n) s = .next (s.setLine n ((s.line n).takeHeader b (s.threshold n))) := by
  have five : ¬ ((s.line n).header ++ [b]).length = 5 := by
    rw [List.length_append, List.length_singleton]
    omega
  refine congrArg Host.Outcome.next ?_
  simp only [State.takeHeaderByte, header, fifo, State.line_setLine]
  exact if_neg five

/-- R65: the fifth byte hands the request in. -/
theorem exec_headerByte_handsIn (four : (s.line n).header.length = 4) :
    exec (.headerByte n) s =
      .next ((s.setLine n ((s.line n).takeHeader b (s.threshold n))).handIn n) := by
  have five : ((s.line n).header ++ [b]).length = 5 := by
    rw [List.length_append, List.length_singleton, four]
  refine congrArg Host.Outcome.next ?_
  simp only [State.takeHeaderByte, header, fifo, State.line_setLine]
  exact if_pos five

end

/-- R67: the arrival's refusal reaches the line at once. -/
theorem State.handIn_refused {s : State} {n : LineNo} {l : Line} {reason : Reason} {peer : Nat}
    (refused : s.arrivalRefusal (headerOf l.header) = some (reason, peer)) :
    (s.setLine n l).handIn n = s.setLine n (l.refusedLine (headerOf l.header).len reason peer) := by
  have same : (s.setLine n l).arrivalRefusal (headerOf l.header) = some (reason, peer) := refused
  rw [State.handIn, State.line_setLine]
  simp only [same, State.setLine_setLine]

/-- R65, R79: the line enters LOOKUP with its request outstanding. -/
theorem State.handIn_asked {s : State} {n : LineNo} {l : Line}
    (passed : s.arrivalRefusal (headerOf l.header) = none) :
    (s.setLine n l).handIn n =
      (s.setLine n { l with state := .lookup }).askLookup (.admission (.line n) (headerOf l.header)) := by
  have same : (s.setLine n l).arrivalRefusal (headerOf l.header) = none := passed
  rw [State.handIn, State.line_setLine]
  simp only [same, State.setLine_setLine]

/-- Settles O26: a header byte by whether it is the fifth, the fifth by the checks of its arrival, and the
disposition by the first range that holds the address. -/
theorem headerBytesAndRouting : Obligations.HeaderBytesAndRouting := by
  refine ⟨fun s n b rest header fifo low => ?_, fun s a => ?_⟩
  · intro l h taken
    have line : l.takeHeader b h = taken := Line.takeHeader_eq fifo low
    refine ⟨fun more => ?_, fun four => ?_⟩
    · rw [exec_headerByte_joins header fifo more, line]
    · intro hd refused
      have len : hd.len = b.toNat := headerOf_len four b
      have handsIn : exec (.headerByte n) s = .next ((s.setLine n taken).handIn n) := by
        rw [exec_headerByte_handsIn header fifo four, line]
      have refuses {reason : Reason} {peer : Nat} (arrival : s.arrivalRefusal hd = some (reason, peer)) :
          exec (.headerByte n) s = .next (s.setLine n (refused reason peer)) := by
        rw [handsIn, State.handIn_refused (l := taken) arrival, len]
        rfl
      rw [← len]
      refine ⟨rfl, fun long => ?_, fun short p away => ?_, fun short barred => ?_, fun short here => ?_⟩
      · exact refuses (State.arrivalRefusal_long long)
      · exact refuses (State.arrivalRefusal_foreign short away)
      · exact refuses (State.arrivalRefusal_blocked short barred)
      · rw [handsIn, State.handIn_asked (l := taken) (State.arrivalRefusal_local short here),
          State.askLookup_eq]
        rfl
  · intro hit disp
    have hits (r : Nat) : s.rangeMatches a r = true ↔ hit r := State.rangeMatches_iff
    refine ⟨fun r top found first => ?_, fun missed => ?_⟩
    · exact (State.disposition_of_first top ((hits r).2 found) fun q below => mt (hits q).1 (first q below)).trans
        (dispositionOf_eq _ _)
    · exact (State.disposition_of_none fun r top => mt (hits r).1 (missed r top)).trans (dispositionOf_eq _ _)

end Sys2Proof.Machine
end

/-! ## Text bytes, the check byte, bytes to skip and the aborts of a line (R68 to R72, R90) -/

section

namespace Sys2Proof.Machine

/-! ### The line that takes a byte in TEXT, CHECK or SKIP -/

section
variable {l : Line} {b : Byte} {rest : List Byte} {h : Nat} (fifo : l.fifo = b :: rest) (low : 8 ≤ h)
include fifo low

/-- R70: with `k` bytes left, one or more, the byte taken is the last where `k` is 1. -/
theorem Line.takeSkip_eq (more : 1 ≤ l.remaining) :
    l.takeSkip h =
      { l with
        fifo := rest
        fillHold := if h ≤ rest.length then true else if rest.length + 8 ≤ h then false else l.fillHold
        remaining := l.remaining - 1, timer := 0, state := if l.remaining = 1 then .idle else .skip } := by
  have last : l.remaining ≤ 1 ↔ l.remaining = 1 := by omega
  simp only [Line.takeSkip, Line.takeHead_eq fifo low, last, Line.restart]

/-- R68 -/
theorem Line.takeText_eq (more : 1 ≤ l.remaining) :
    l.takeText b h =
      { l with
        fifo := rest
        fillHold := if h ≤ rest.length then true else if rest.length + 8 ≤ h then false else l.fillHold
        sum := l.sum + b, remaining := l.remaining - 1, timer := 0
        state := if l.remaining = 1 then .check else .text } := by
  have last : l.remaining ≤ 1 ↔ l.remaining = 1 := by omega
  simp only [Line.takeText, Line.takeHead_eq fifo low, last, Line.restart]

/-- R69 -/
theorem Line.takeCheck_eq :
    l.takeCheck b h =
      { l with
        fifo := rest
        fillHold := if h ≤ rest.length then true else if rest.length + 8 ≤ h then false else l.fillHold
        sum := l.sum + b, bound := none, timer := 0, state := .idle } := by
  rw [Line.takeCheck, Line.takeHead_eq fifo low, Line.restart]

end

/-! ### The steps TEXT_BYTE, CHECK_BYTE and SKIP_BYTE -/

/-- Four records are told apart by the records of their numbers. -/
theorem Quad.ext_get {α : Type} {q p : Quad α} (h : ∀ n, q.get n = p.get n) : q = p := by
  obtain ⟨q0, q1, q2, q3⟩ := q
  obtain ⟨p0, p1, p2, p3⟩ := p
  obtain rfl : q0 = p0 := h 0
  obtain rfl : q1 = p1 := h 1
  obtain rfl : q2 = p2 := h 2
  obtain rfl : q3 = p3 := h 3
  rfl

/-- R90: where no other line has the tag, a line that completes its entry and writes its own record shows
nothing of the unbinding. -/
theorem State.completeEntry_setLine {s : State} {n : LineNo} {t : Tag}
    (others : ∀ m, m ≠ n → (s.line m).bound ≠ some t) (l : Line) :
    (s.completeEntry t).setLine n l = (s.setLine n l).askLaunch t := by
  have same (m : LineNo) : ((s.unbindLines t).setLine n l).line m = (s.setLine n l).line m := by
    by_cases hm : m = n
    · rw [hm, State.line_setLine, State.line_setLine]
    · rw [State.line_setLine_ne _ _ hm, State.line_setLine_ne _ _ hm, State.line_unbindLines]
      exact if_neg (others m hm)
  have unbound : (s.unbindLines t).setLine n l = s.setLine n l :=
    congrArg (fun q => { s with lines := q }) (Quad.ext_get same)
  exact congrArg (State.askLaunch · t) unbound

section
variable {s : State} {n : LineNo} {b : Byte} {rest : List Byte} {t : Tag} {e : Entry}
  (fifo : (s.line n).fifo = b :: rest)
include fifo

theorem exec_skipByte (skip : (s.line n).state = .skip) :
    exec (.skipByte n) s = .next (s.setLine n ((s.line n).takeSkip (s.threshold n))) := by
  refine congrArg Host.Outcome.next ?_
  simp only [State.takeSkipByte, skip, fifo]

section
variable (bound : (s.line n).bound = some t) (live : s.entry t = some e)
include bound live

/-- R68: the byte goes to the text cell of its number in the page. -/
theorem exec_textByte {block : Nat} (text : (s.line n).state = .text)
    (place : e.blocks[(e.len - (s.line n).remaining) / 16]? = some block)
    (inUnits : dirCapacity s.partition + block < 4608) :
    exec (.textByte n) s = .next
      ((s.setCell (16 * (dirCapacity s.partition + block) + (e.len - (s.line n).remaining) % 16) b).setLine n
        ((s.line n).takeText b (s.threshold n))) := by
  have written := (State.writeText_eq_some (b := b)).2 ⟨block, place, inUnits, rfl⟩
  show s.takeTextByte n = _
  simp only [State.takeTextByte, text, fifo, bound, live, written, State.setCell]

/-- R69, R90: the check byte that brings the sum to 0. -/
theorem exec_checkByte_good (check : (s.line n).state = .check) (zero : (s.line n).sum + b = 0) :
    exec (.checkByte n) s = .next
      ((s.completeEntry t).setLine n (((s.line n).takeCheck b (s.threshold n)).accept t e.serial)) := by
  refine congrArg Host.Outcome.next ?_
  simp only [State.takeCheckByte, check, fifo, bound, live]
  exact if_pos zero

/-- R69: another check byte. -/
theorem exec_checkByte_bad (check : (s.line n).state = .check) (off : (s.line n).sum + b ≠ 0) :
    exec (.checkByte n) s = .next
      ((s.endEntry .aborted t).setLine n (((s.line n).takeCheck b (s.threshold n)).refuse .badCheck 0)) := by
  refine congrArg Host.Outcome.next ?_
  simp only [State.takeCheckByte, check, fifo, bound, live]
  exact if_neg off

end
end

/-- Settles O27, by the line's state: the text cell of a TEXT byte, the two outcomes of the check byte, and
the byte to skip. -/
theorem textCheckAndSkipBytes : Obligations.TextCheckAndSkipBytes := by
  refine ⟨fun s n b rest t e k block text fifo bound live more len place inUnits low => ?_,
    fun s n b rest t e check fifo bound live low others => ?_, fun s n b rest skip fifo more low => ?_⟩
  · intro l h a
    have number : e.len - (s.line n).remaining = k := by omega
    refine ⟨_, exec_textByte fifo bound live text (number.symm ▸ place) inUnits, ?_⟩
    rw [number, Line.takeText_eq fifo low more]
    exact ⟨cellRead_tblInsert _ a b, fun a' other => cellRead_tblInsert_ne _ b other, rfl⟩
  · intro l h taken
    have line : l.takeCheck b h = taken := Line.takeCheck_eq fifo low
    refine ⟨fun zero => ?_, fun off => ?_⟩
    · rw [exec_checkByte_good fifo bound live check zero, line, State.completeEntry_setLine others,
        State.askLaunch, State.askLookup_eq]
      rfl
    · rw [exec_checkByte_bad fifo bound live check off, line]
      rfl
  · intro l h
    rw [exec_skipByte fifo skip, Line.takeSkip_eq fifo low more]

/-! ### Line aborts and the ticks of a line (R71, R72) -/

/-- R72: the record that an abort leaves, by its cause and the state before it. -/
theorem Line.abort_eq (l : Line) (c : AbortCause) :
    let emptied : Line := { l with
      state := if c = .disable then .disabled else .idle
      fifo := [], fillHold := false, header := [], sum := 0, remaining := 0, bound := none, timer := 0 }
    l.abort c =
      if l.state = .skip then emptied
      else if c = .fifoOverrun then emptied.refuse .fifoOverrun 0
      else if c = .timeout then emptied.refuse .timeout 0
      else emptied := by
  intro emptied
  by_cases skip : l.state = .skip
  · rw [if_pos skip]
    cases c <;> simp only [Line.abort, abortReason, skip, if_true] <;> rfl
  · rw [if_neg skip]
    cases c <;> simp only [Line.abort, abortReason, if_neg skip] <;> rfl

/-- R71: the states in which the idle timer counts. -/
theorem LineState.counts_iff {st : LineState} :
    st.counts = true ↔ st = .header ∨ st = .text ∨ st = .check ∨ st = .skip := by
  cases st <;> decide

section
variable {s : State} {n : LineNo}

/-- R71: a tick leaves a line whose timer does not count. -/
theorem State.tickLine_of_still (still : ¬ (s.line n).state.counts = true) : s.tickLine n = s := by
  rw [State.tickLine, if_pos (by rwa [Bool.not_eq_true', ← Bool.not_eq_true])]

/-- R71: below the idle timeout a tick raises the timer. -/
theorem State.tickLine_of_below (runs : (s.line n).state.counts = true)
    (below : min 60 ((s.line n).timer + 1) < s.idleLimit n) :
    s.tickLine n = s.setLine n { s.line n with timer := min 60 ((s.line n).timer + 1) } := by
  rw [State.tickLine, runs]
  exact if_neg (Nat.not_le.2 below)

/-- R71, R72: at the idle timeout or above it a tick aborts the line. -/
theorem State.tickLine_of_reached (runs : (s.line n).state.counts = true)
    (reached : s.idleLimit n ≤ min 60 ((s.line n).timer + 1)) : s.tickLine n = s.abortLine n .timeout := by
  rw [State.tickLine, runs]
  exact if_pos reached

end

/-- R71, R107: IDLE_TIMEOUT takes the tick that its line has still to take. -/
theorem exec_idleTimeout (n : LineNo) (s : State) : exec (.idleTimeout n) s = .next (s.takeLateTick n) := rfl

/-- Settles O28: the record of an abort by its cause, and a tick by the line's state and its timer. -/
theorem abortsOfALine : Obligations.AbortsOfALine := by
  refine ⟨fun s n c => ?_, fun s n => ?_⟩
  · intro l u emptied refused
    have aborted {k : Line} (record : l.abort c = k) :
        s.abortLine n c =
          { u with
            lookups := u.lookups.filter (fun k => !isRequestOf (.line n) k.user)
            lines := u.lines.put n k } := by
      rw [← record]
      rfl
    refine aborted ((Line.abort_eq l c).trans ?_)
    cases c <;> rfl
  · intro l counting timer
    have counts : l.state.counts = true ↔ counting := LineState.counts_iff
    refine ⟨fun still => ?_, fun runs below => ?_, fun runs reached => ?_, fun due => ?_, fun clear => ?_⟩
    · exact State.tickLine_of_still (mt counts.1 still)
    · exact State.tickLine_of_below (counts.2 runs) below
    · exact State.tickLine_of_reached (counts.2 runs) reached
    · rw [exec_idleTimeout, State.takeLateTick, if_pos due, State.setTickDue]
    · rw [exec_idleTimeout, State.takeLateTick_of_clear clear]

end Sys2Proof.Machine
end

/-! ## Receipt fetches and the line commands (R64, R74 to R76, R168, R169) -/

section

namespace Sys2Proof.Machine

/-! ### Receipt fetches (R74, R169) -/

section
variable {s : State} {n : LineNo}

theorem exec_receiptFetch (clear : s.op ≠ some .autoclear) :
    exec (.receiptFetch n false) s = .next (s.fetchReceipt n) :=
  congrArg Host.Outcome.next (if_neg clear)

/-- R74: a fetch of an empty slot sends NONE and sets the underflow flag. -/
theorem State.fetchReceipt_of_none (empty : (s.line n).receipt = none) :
    s.fetchReceipt n = (s.setLine n { s.line n with underflow := true }).setRcv n [0x00, 0, 0, 0] := by
  simp only [State.fetchReceipt, Line.fetch, empty, receiptBytes]

/-- R74: a fetch of a full slot sends its receipt and empties it. -/
theorem State.fetchReceipt_of_some {r : Receipt} (full : (s.line n).receipt = some r) :
    s.fetchReceipt n = (s.setLine n { s.line n with receipt := none }).setRcv n (receiptBytes (some r)) := by
  simp only [State.fetchReceipt, Line.fetch, full]

end

/-! ### The line of the first argument (R75) -/

section
variable {s : State} {c : Cmd} {args : List Byte} {b : Byte} {take : Frame → State → State}
  {g : Frame → LineNo → State → State} (harr : s.lastArrives c args b noDesig) (idle : s.op = none)
  (on : ∀ f u, take f u = onLine f u (g f))
include harr idle on

/-- R75: a line command is taken on the line of its first argument, with its frame closed. -/
theorem portLast_onLine {n : LineNo} (hb : (args ++ [b]).getD 0 0 = BitVec.ofNat 8 n.val)
    (complete : argsComplete c (args ++ [b]) = true := by rfl) :
    portLast c take b s =
      g { cmd := c, args := args ++ [b], misq := false, desig := noDesig, outcome := .none } n s.lastTaken := by
  rw [portLast_taken harr (.inl idle) complete, on]
  exact onSlot_code (b := (args ++ [b]).getD 0 0) rfl hb _ _

/-- R75: a first argument above 3 gives RANGE. -/
theorem portLast_onLine_range (hb : 3 < ((args ++ [b]).getD 0 0).toNat)
    (complete : argsComplete c (args ++ [b]) = true := by rfl) :
    portLast c take b s = s.afterLast [0x07] := by
  rw [portLast_taken harr (.inl idle) complete, on]
  exact onSlot_range (b := (args ++ [b]).getD 0 0) rfl hb _ _

end

/-- R75: a line number above 3 gives RANGE at each of the line commands of one argument. -/
theorem lineCommand_range {s : State} {b : Byte} (idle : s.op = none) {c : Cmd} {i : Instr}
    (hc : c ∈ ([.lineEnable, .lineDisable, .lineFlush, .lineStatus] : List Cmd))
    (row : lastRow c b = some i) (harr : s.lastArrives c [] b noDesig) (hb : 3 < b.toNat) :
    exec i s = .next (s.afterLast [0x07]) := by
  have refused {take : Frame → State → State} {g : Frame → LineNo → State → State}
      (complete : argsComplete c [b] = true) (on : ∀ f u, take f u = onLine f u (g f)) :
      Host.Outcome.next (portLast c take b s) = (.next (s.afterLast [0x07]) : Res) :=
    congrArg Host.Outcome.next (portLast_onLine_range harr idle on hb complete)
  simp only [List.mem_cons, List.not_mem_nil, or_false] at hc
  rcases hc with rfl | rfl | rfl | rfl
  all_goals
    cases row
    exact refused rfl fun _ _ => rfl

/-! ### LINE STATUS (R59, R64, R75, R168) -/

section
variable {s : State} {n : LineNo}

/-- R59, R64: what holds a line while the part is not clearing. -/
theorem State.lineHold_iff (clear : s.op ≠ some .autoclear) :
    s.lineHold n = true ↔
      (s.line n).state = .disabled ∨ (s.line n).fillHold = true ∨ (s.line n).heldForReceipt = true ∨
        s.heldForPool n = true := by
  simp only [State.lineHold, Bool.or_eq_true, decide_eq_true_eq, clear, false_or, or_assoc]

/-- R168: the held-START cause has one bit for each of the two causes. -/
theorem State.heldCause_byte (s : State) (n : LineNo) :
    byteOf (s.heldCause n) =
      (if (s.line n).heldForReceipt then 1 else 0) + (if s.heldForPool n then 2 else 0) := by
  unfold State.heldCause
  cases (s.line n).heldForReceipt <;> cases s.heldForPool n <;> rfl

/-- R78: the lookups that are requests of line `n`, by what each is made for. -/
theorem isRequestOf_line (n : LineNo) (u : LookupUser) :
    isRequestOf (.line n) u =
      match u with
      | .admission (.line m) _ => decide (m = n)
      | _ => false := by
  cases u with
  | admission src h =>
    cases src with
    | line m => exact decide_eq_decide.2 ⟨fun same => by cases same; rfl, fun same => by rw [same]⟩
    | port => rfl
  | launch t | service m => rfl

/-- R75, R168: the bytes of LINE STATUS while the part is not clearing. -/
theorem State.lineBytes_eq (clear : s.op ≠ some .autoclear) :
    let l := s.line n
    s.lineBytes n =
      [lineStateByte l.state, byteOf l.fifo.length,
        if l.state = .disabled ∨ l.fillHold = true ∨ l.heldForReceipt = true ∨ s.heldForPool n = true then 1
        else 0,
        flagByte l.fillHold, (if l.heldForReceipt then 1 else 0) + (if s.heldForPool n then 2 else 0),
        byteOf l.timer]
      ++ beBytes 2 l.remaining ++ l.bound.elim [0xFF, 0xFF] tagBytes
      ++ [flagByte (s.lookups.any (fun k => isRequestOf (.line n) k.user)), flagByte l.receipt.isSome,
        flagByte l.overflow, flagByte l.underflow]
      ++ beBytes 2 l.junk ++ beBytes 2 l.accepted ++ beBytes 2 l.refused := by
  intro l
  have hold : flagByte (s.lineHold n) = _ := if_congr (State.lineHold_iff clear) rfl rfl
  have bound : (match l.bound with
      | some t => tagBytes t
      | none => absentBytes 2) = l.bound.elim [0xFF, 0xFF] tagBytes := by cases l.bound <;> rfl
  rw [← State.heldCause_byte, ← hold, ← bound]
  rfl

end

section
variable {s : State} {n : LineNo} {b m : Byte} (idle : s.op = none) (hb : b = BitVec.ofNat 8 n.val)
include idle hb

/-- R75 -/
theorem lineEnable_taken (harr : s.lastArrives .lineEnable [] b noDesig) :
    exec (.lineEnable (.last b)) s = .next
      (if (s.line n).state = .disabled then
        (s.afterLast [0x00]).setLine n { s.line n with state := .idle, timer := 0 }
       else s.afterLast [0x05]) := by
  refine congrArg Host.Outcome.next ((portLast_onLine harr idle (fun _ _ => rfl) hb).trans ?_)
  by_cases off : (s.line n).state = .disabled
  · rw [if_pos off]
    exact if_pos off
  · rw [if_neg off]
    exact if_neg off

/-- R76 -/
theorem lineDisable_taken (harr : s.lastArrives .lineDisable [] b noDesig) :
    exec (.lineDisable (.last b)) s = .next
      (if (s.line n).state = .disabled then s.afterLast [0x00]
       else (s.lastTaken.abortLine n .disable).answer .ok []) :=
  congrArg Host.Outcome.next (portLast_onLine harr idle (fun _ _ => rfl) hb)

/-- R76 -/
theorem lineFlush_taken (harr : s.lastArrives .lineFlush [] b noDesig) :
    exec (.lineFlush (.last b)) s = .next
      (if (s.line n).state = .disabled then s.afterLast [0x05]
       else (s.lastTaken.abortLine n .flush).answer .ok []) :=
  congrArg Host.Outcome.next (portLast_onLine harr idle (fun _ _ => rfl) hb)

/-- R75 -/
theorem lineStatus_taken (harr : s.lastArrives .lineStatus [] b noDesig) :
    exec (.lineStatus (.last b)) s = .next (s.afterLast (0x00 :: s.lineBytes n)) :=
  congrArg Host.Outcome.next (portLast_onLine harr idle (fun _ _ => rfl) hb)

/-- R75 -/
theorem lineClear_taken (harr : s.lastArrives .lineClear [b] m noDesig) :
    exec (.lineClear (.last m)) s = .next ((s.afterLast [0x00]).setLine n ((s.line n).clearItems m)) :=
  congrArg Host.Outcome.next (portLast_onLine harr idle (fun _ _ => rfl) hb)

end

/-- Settles O29: the fetches by what the receipt slot holds, and the commands on the line of their argument. -/
theorem fetchesAndLineCommands : Obligations.FetchesAndLineCommands := by
  refine ⟨fun s n clear => ⟨rfl, fun empty => ?_, fun t v full => ?_, fun r p full => ?_⟩,
    fun s b m idle => ⟨fun c hc i row harr hb => lineCommand_range idle hc row harr hb,
      fun harr hb => ?_, fun n hb => ?_⟩, by decide, by decide⟩
  · rw [exec_receiptFetch clear, State.fetchReceipt_of_none empty]
  · rw [exec_receiptFetch clear, State.fetchReceipt_of_some full]
    rfl
  · rw [exec_receiptFetch clear, State.fetchReceipt_of_some full]
    rfl
  · exact congrArg Host.Outcome.next (portLast_onLine_range harr idle (fun _ _ => rfl) hb)
  · intro l
    refine ⟨fun harr => lineEnable_taken idle hb harr, fun harr => lineDisable_taken idle hb harr,
      fun harr => lineFlush_taken idle hb harr, fun harr => ?_, fun harr => lineClear_taken idle hb harr⟩
    intro start forReceipt forPool
    have requests : s.lookups.any (fun k => isRequestOf (.line n) k.user) =
        s.lookups.any (fun k => match k.user with
          | .admission (.line m) _ => decide (m = n)
          | _ => false) := congrArg s.lookups.any (funext fun k => isRequestOf_line n k.user)
    have bound : l.bound.elim [0xFF, 0xFF] tagBytes =
        match l.bound with
        | none => [0xFF, 0xFF]
        | some t => [BitVec.ofNat 8 t.slot, BitVec.ofNat 8 t.gen] := by cases l.bound <;> rfl
    rw [lineStatus_taken idle hb harr, State.lineBytes_eq (by simp [idle]), requests, bound]
    rfl

end Sys2Proof.Machine
end

/-! ## The admission of a line's request (R66, R67, R79 to R85) -/

section

namespace Sys2Proof.Machine

/-! ### The checks of the chain (R80) -/

/-- R7, R79: the request of `src` is the oldest lookup, and it is answered. -/
theorem exec_admission {s : State} {src : Source} {h : Header} {held : Bool} {rest : List Lookup}
    (idle : s.op = none) (quiet : s.pendingRemovals = [])
    (oldest : s.lookups = { user := .admission src h, held := held } :: rest) :
    exec .admission s = State.answerRequest { s with lookups := rest } src h := by
  have due : s.answerable = some (.admission src h) :=
    State.answerable_eq_some.2 ⟨idle, quiet, held, rest, oldest⟩
  have pop : s.popLookup = { s with lookups := rest } := by rw [State.popLookup, oldest]; rfl
  show execAdmission s = _
  rw [execAdmission, due, pop]

/-- R85: no slot is free exactly while 256 entries live. -/
theorem State.freeIndex_isNone_iff {s : State} : s.freeIndex.isNone = true ↔ s.liveEntries.length = 256 := by
  have counted : s.liveEntries.length = slotIndices.countP (fun i => (s.slot i).entry.isSome) :=
    List.length_filterMap_eq_countP
  have slots : slotIndices.length = 256 := List.length_range
  rw [counted, ← slots, List.countP_eq_length, Option.isNone_iff_eq_none, State.freeIndex, List.find?_eq_none]
  simp only [Bool.not_eq_true, Option.isNone_eq_false_iff]

/-- R80: the checks for a record in their order, by the figures that they compare. -/
theorem State.recordRefusal_eq (s : State) (h : Header) (r : Subscriber) :
    s.recordRefusal h r =
      if r.state = .suspended then some .suspended
      else if r.state = .retiring then some .retired
      else if (s.acct r.account).state = .barred then some .barred
      else if 8 ≤ r.live then some .liveLimit
      else if s.liveEntries.length = 256 then some .tableFull
      else if s.freeBlocks.length * 16 < h.len then some .poolFull
      else if (s.acct r.account).balance - (s.chargeFor r.cls r.home h.len h.priority : Int) <
        -((s.acct r.account).cl : Int) then some .noCredit
      else none := by
  have pool : s.freeBlocks.length < blocksOf h.len ↔ s.freeBlocks.length * 16 < h.len := by
    rw [blocksOf]
    omega
  have credit (balance : Int) (cl charge : Nat) :
      (!creditOk balance cl charge) = true ↔ balance - (charge : Int) < -(cl : Int) := by
    rw [creditOk, Bool.not_eq_true', decide_eq_false_iff_not, Int.not_le]
  simp only [State.recordRefusal, State.freeIndex_isNone_iff, pool, credit]

/-! ### The verdict (R79, R80, R82) -/

section
variable {s : State} {h : Header}

theorem State.verdict_unknown (absent : s.record h.addr = none) : s.verdict h = .refused .unknown := by
  rw [State.verdict, absent]

section
variable {r : Subscriber} (known : s.record h.addr = some r)
include known

theorem State.verdict_refused {reason : Reason} (refused : s.recordRefusal h r = some reason) :
    s.verdict h = .refused reason := by
  simp only [State.verdict, known, refused]

theorem State.verdict_admits {i : Nat} (passed : s.recordRefusal h r = none) (free : s.freeIndex = some i) :
    s.verdict h = .admitted i r (s.pickSerial h.addr r.nextSerial) := by
  simp only [State.verdict, known, passed, free]

end
end

/-- R67: a line's request that is refused. -/
theorem State.answerRequest_line_refused {s : State} {n : LineNo} {h : Header} {reason : Reason}
    (refused : s.verdict h = .refused reason) :
    s.answerRequest (.line n) h = .next (s.setLine n ((s.line n).refusedLine h.len reason 0)) := by
  rw [State.answerRequest, refused]
  rfl

/-- Settles O32: the verdict is that of the first check that fails, and it reaches the line alone. -/
theorem admissionRefusesALine : Obligations.AdmissionRefusesALine := by
  intro s n h held rest idle quiet oldest refused
  have refuses {reason : Reason} (verdict : s.verdict h = .refused reason) :
      exec .admission s = .next (refused reason) := by
    have same : State.verdict { s with lookups := rest } h = .refused reason := verdict
    rw [exec_admission idle quiet oldest, State.answerRequest_line_refused same]
    rfl
  refine ⟨fun absent => refuses (State.verdict_unknown absent), fun r reason known fails => ?_⟩
  exact refuses (State.verdict_refused known ((s.recordRefusal_eq h r).trans fails))

/-! ### The slot and the serial of an admission (R80, R83, R85) -/

/-- R80, R85: the free slot of lowest index. -/
theorem State.freeIndex_of_lowest {s : State} {i : Nat} (top : i < 256) (free : (s.slot i).entry = none)
    (lower : ∀ j, j < i → (s.slot j).entry ≠ none) : s.freeIndex = some i :=
  List.find?_range_eq_some.2 ⟨by rw [free]; rfl, List.mem_range.2 top, fun j below => by
    simpa [Option.isSome_iff_ne_none] using lower j below⟩

/-- R83: a serial is taken while a live entry of the address holds it. -/
theorem State.serialTaken_iff {s : State} {a v : Nat} :
    s.serialTaken a v = true ↔ ∃ e ∈ s.liveEntries, e.addr = a ∧ e.serial = v := by
  simp only [State.serialTaken, List.any_eq_true, State.liveEntries, List.mem_filterMap]
  constructor
  · rintro ⟨i, listed, holds⟩
    cases live : (s.slot i).entry with
    | none => rw [live] at holds; cases holds
    | some e =>
      rw [live] at holds
      exact ⟨e, ⟨i, listed, live⟩, by simpa using holds⟩
  · rintro ⟨e, ⟨i, listed, live⟩, addr, serial⟩
    refine ⟨i, listed, ?_⟩
    rw [live]
    simp [addr, serial]

/-- R83: the first free serial around the circle. -/
theorem State.pickSerial_of_first {s : State} {a next k : Nat} (top : k < 64)
    (free : ¬ s.serialTaken a ((next + k) % 64) = true)
    (earlier : ∀ j, j < k → s.serialTaken a ((next + j) % 64) = true) :
    s.pickSerial a next = (next + k) % 64 := by
  have found : (List.range 64).find? ((fun v => !s.serialTaken a v) ∘ fun k => (next + k) % 64) = some k :=
    List.find?_range_eq_some.2 ⟨by simpa using free, List.mem_range.2 top, fun j below => by
      simpa using earlier j below⟩
  rw [State.pickSerial, List.find?_map, found]
  rfl

/-! ### What an admission leaves (R23, R24, R36, R82) -/

/-- R35, R36: an account that covers the charge within its credit limit is not overrun after it. -/
theorem Account.admitPage_recompute {a : Account} {c : Nat} (covered : a.balance - (c : Int) ≥ -(a.cl : Int)) :
    (a.admitPage c).recompute =
      { a with
        balance := max (-8388608) (min 8388607 (a.balance - (c : Int)))
        held := min 16777215 (a.held + c), accepted := min 65535 (a.accepted + 1)
        charged := min 16777215 (a.charged + c), overrun := false, mark := true } := by
  have within : ¬ clampBalance (a.balance - (c : Int)) < -(a.cl : Int) := by
    rw [clampBalance_eq]
    split_ifs <;> omega
  have clear : overrunOf (clampBalance (a.balance - (c : Int))) a.cl = false := decide_eq_false within
  rw [Account.recompute, Account.admitPage]
  simp only [clear]
  rfl

/-- R23, R24, R82: the whole state after an admission that its account covers. -/
theorem State.admitPage_covered {s : State} {h : Header} {r : Subscriber} (i : Nat) (src : Source) (serial : Nat)
    (covered : (s.acct r.account).balance - (s.chargeFor r.cls r.home h.len h.priority : Int) ≥
      -((s.acct r.account).cl : Int)) :
    let t := s.admitPage i src h r serial
    let left := s.freeBlocks.drop (blocksOf h.len)
    let hold := poolHoldOf left.length s.lowMark s.highMark s.poolHold
    t = { s with
      slots := t.slots, accounts := t.accounts, freeBlocks := left, poolHold := hold
      directory := s.directory.map (fun q =>
        if q.addr = h.addr then { q with nextSerial := (serial + 1) % 64, live := q.live + 1 } else q)
      port := { s.port with
        causes := if hold && !s.poolHold then s.port.causes ||| 0x04 else s.port.causes } } := by
  intro t left hold
  let u := (s.takeBlocks (blocksOf h.len)).updateRecord h.addr
    (fun r => { r with nextSerial := (serial + 1) % 64, live := r.live + 1 })
  have account : u.acct r.account = s.acct r.account := State.acct_congr
    (show (s.takeBlocks (blocksOf h.len)).accounts = s.accounts by rw [State.takeBlocks_eq]) _
  have clear : ((s.acct r.account).admitPage (s.newEntry src h r serial).charge).recompute.overrun = false :=
    congrArg Account.overrun (Account.admitPage_recompute covered)
  have event : u.commit r.account ((s.acct r.account).admitPage (s.newEntry src h r serial).charge) =
      u.setAcct r.account ((s.acct r.account).admitPage (s.newEntry src h r serial).charge).recompute := by
    rw [State.commit_eq, clear]
    rfl
  have admission : t = (u.setAcct r.account
      ((s.acct r.account).admitPage (s.newEntry src h r serial).charge).recompute).allocate i
        (s.newEntry src h r serial) := by
    rw [← event, ← account]
    rfl
  have frame : t = { s.takeBlocks (blocksOf h.len) with
      slots := t.slots, accounts := t.accounts
      directory := (s.takeBlocks (blocksOf h.len)).directory.map (fun q =>
        if q.addr = h.addr then { q with nextSerial := (serial + 1) % 64, live := q.live + 1 } else q) } := by
    clear_value t
    rw [admission]
    rfl
  rw [State.takeBlocks_eq] at frame
  exact frame

@[simp] theorem State.slot_setLine (s : State) (n : LineNo) (l : Line) (j : Nat) :
    (s.setLine n l).slot j = s.slot j := rfl

@[simp] theorem State.acct_setLine (s : State) (n : LineNo) (l : Line) (j : Nat) :
    (s.setLine n l).acct j = s.acct j := rfl

/-- R66: a line's request that is admitted. -/
theorem State.answerRequest_line_admitted {s : State} {n : LineNo} {h : Header} {r : Subscriber} {i v : Nat}
    (admitted : s.verdict h = .admitted i r v) :
    s.answerRequest (.line n) h = .next
      ((s.admitPage i (.line n) h r v).setLine n ((s.line n).admittedLine h.len (s.nextTag i))) := by
  rw [State.answerRequest, admitted]
  show Host.Outcome.next _ = _
  rw [State.line, State.admitPage_lines, State.line]

/-- Settles O33: the verdict by the lowest free slot and the first free serial, and then the admission. -/
theorem admissionAdmitsALine : Obligations.AdmissionAdmitsALine := by
  intro s n h held rest r i k idle quiet oldest known active unbarred few top free lower room charge a covered v
    takenBy circle unheld earlier blocks left hold gen prof
  have taken (x : Nat) : s.serialTaken h.addr x = true ↔ takenBy x := State.serialTaken_iff
  have index : s.freeIndex = some i := State.freeIndex_of_lowest top free lower
  have serial : s.pickSerial h.addr r.nextSerial = v :=
    State.pickSerial_of_first circle (mt (taken v).1 unheld) fun j below => (taken _).2 (earlier j below)
  have passed : s.recordRefusal h r = none := by
    have slots : ¬ s.liveEntries.length = 256 := by
      rw [← State.freeIndex_isNone_iff, index]
      exact Bool.false_ne_true
    rw [State.recordRefusal_eq, active, if_neg (by decide), if_neg (by decide), if_neg unbarred,
      if_neg (Nat.not_le.2 few), if_neg slots, if_neg (by omega), if_neg (Int.not_lt.2 covered)]
  let w : State := { s with lookups := rest }
  have admitted : w.verdict h = .admitted i r v := (State.verdict_admits known passed index).trans (by rw [serial])
  have whole := State.admitPage_covered (s := w) i (.line n) v covered
  refine ⟨_, (exec_admission idle quiet oldest).trans (State.answerRequest_line_admitted admitted),
    ?_, fun j other => ?_, ?_, fun j other => ?_, ?_⟩
  · rw [State.slot_setLine, State.slot_admitPage]
    rfl
  · rw [State.slot_setLine, State.slot_admitPage_ne w i (.line n) h r v other]
    rfl
  · rw [State.acct_setLine, State.acct_admitPage, if_pos rfl]
    exact Account.admitPage_recompute covered
  · rw [State.acct_setLine, State.acct_admitPage, if_neg (Ne.symm other)]
    rfl
  · let admittedLine (u : State) : State := u.setLine n ((w.line n).admittedLine h.len (w.nextTag i))
    exact (congrArg admittedLine whole).trans rfl

end Sys2Proof.Machine
end

/-! ## A counted tick (R71, R102, R107, R148) -/

section

namespace Sys2Proof.Machine

/-! ### The tick at the lines (R71) -/

/-- R71, R107: a line after a tick that does not bring it to its idle timeout: the tick is left to the line's
own row, or its timer counts it, or it stands still. -/
def Line.ticked (l : Line) (late : Bool) : Line :=
  if late then { l with tickDue := true }
  else if l.state.counts then { l with timer := min 60 (l.timer + 1) } else l

/-- R71: line `n` is below its idle timeout at the next tick, where it counts at all. -/
def State.BelowTimeout (s : State) (n : LineNo) : Prop :=
  (s.line n).state.counts = true → min 60 ((s.line n).timer + 1) < s.idleLimit n

section
variable {late : List TickPart}

/-- R71, R107: what a counted tick makes of a line that stays below its timeout. -/
theorem State.tickReaches_line {s : State} {n : LineNo} (below : .line n ∉ late → s.BelowTimeout n) :
    s.tickReaches late (.line n) = s.setLine n ((s.line n).ticked (decide (.line n ∈ late))) := by
  show (if .line n ∈ late then s.setTickDue n true else s.tickLine n) = _
  by_cases listed : .line n ∈ late
  · rw [if_pos listed, Line.ticked, if_pos (decide_eq_true listed), State.setTickDue]
  · rw [if_neg listed, Line.ticked, if_neg (by rwa [decide_eq_true_eq])]
    by_cases runs : (s.line n).state.counts = true
    · rw [if_pos runs, State.tickLine_of_below runs (below listed runs)]
    · rw [if_neg runs, State.tickLine_of_still runs]
      exact congrArg (fun q => { s with lines := q }) (Quad.put_get s.lines n).symm

/-- R71, R107: a tick at several lines that stay below their timeouts reaches each once, and nothing else. -/
theorem State.tickReaches_lines {ns : List LineNo} (once : ns.Nodup) {s : State}
    (below : ∀ n ∈ ns, .line n ∉ late → s.BelowTimeout n) :
    let t := (ns.map TickPart.line).foldl (State.tickReaches late) s
    (∀ n, t.line n = if n ∈ ns then (s.line n).ticked (decide (.line n ∈ late)) else s.line n) ∧
      t = { s with lines := t.lines } := by
  induction ns generalizing s with
  | nil => exact ⟨fun n => rfl, rfl⟩
  | cons m ns ih =>
    obtain ⟨fresh, once⟩ := List.nodup_cons.1 once
    intro t
    let u := s.setLine m ((s.line m).ticked (decide (.line m ∈ late)))
    have first : s.tickReaches late (.line m) = u :=
      State.tickReaches_line (below m (List.mem_cons_self ..))
    have others {n : LineNo} (hn : n ∈ ns) : u.line n = s.line n :=
      State.line_setLine_ne s _ fun same => fresh (same ▸ hn)
    have rest : t = (ns.map TickPart.line).foldl (State.tickReaches late) u := by
      rw [← first]
      rfl
    obtain ⟨lines, frame⟩ := ih once (s := u) fun n hn listed => by
      unfold State.BelowTimeout
      rw [others hn]
      exact below n (List.mem_cons_of_mem _ hn) listed
    rw [← rest] at lines frame
    refine ⟨fun n => ?_, frame.trans rfl⟩
    rw [lines]
    by_cases hn : n ∈ ns
    · rw [if_pos hn, if_pos (List.mem_cons_of_mem _ hn), others hn]
    · by_cases hm : n = m
      · rw [if_neg hn, if_pos (hm ▸ List.mem_cons_self ..), hm]
        exact State.line_setLine ..
      · rw [if_neg hn, if_neg (by simp [hm, hn])]
        exact State.line_setLine_ne s _ hm

/-! ### The tick at the channels (R148) -/

theorem State.mon_sample_ne (s : State) {c k : Chan} (other : k ≠ c) : (s.sample c).mon k = s.mon k := by
  cases on : s.monitorOn with
  | false => rw [State.sample_of_off on]
  | true =>
    obtain ⟨moves, stays⟩ := State.sample_of_on (c := c) on rfl rfl
    cases target : s.sampleTarget _ _ _ with
    | some l => rw [moves l target, State.mon_moveLevel_ne _ l other, State.mon_setMon_ne _ _ other]
    | none => rw [stays target, State.mon_setMon_ne _ _ other]

/-- R107, R148: a tick at a channel is a sample, or leaves one to make. -/
theorem State.tickReaches_channel (s : State) (c : Chan) :
    s.tickReaches late (.channel c) =
      if .channel c ∈ late ∧ s.monitorOn = true then s.setMon c { s.mon c with sampleDue := true }
      else s.sample c :=
  if_congr (by rw [Bool.and_eq_true, decide_eq_true_eq]) rfl rfl

/-- R148: a tick at a channel changes the monitor records and the notice causes only. -/
theorem State.tickReaches_channel_frame (s : State) (c : Chan) :
    let t := s.tickReaches late (.channel c)
    t = { s with mons := t.mons, port := { s.port with causes := t.port.causes } } := by
  rw [State.tickReaches_channel]
  split
  · rfl
  · exact s.sample_frame c

theorem State.mon_tickReaches_ne (s : State) {c k : Chan} (other : k ≠ c) :
    (s.tickReaches late (.channel c)).mon k = s.mon k := by
  rw [State.tickReaches_channel]
  split
  · exact State.mon_setMon_ne s _ other
  · exact s.mon_sample_ne other

/-- R148: a tick while the monitor is off makes no sample, then or later. -/
theorem State.tickReaches_channel_off {s : State} (off : s.monitorOn = false) (c : Chan) :
    s.tickReaches late (.channel c) = s := by
  rw [State.tickReaches_channel, if_neg (by simp [off]), State.sample_of_off off]

/-- R107: a channel that takes the tick at a row of its own. -/
theorem State.mon_tickReaches_late {s : State} {c : Chan} (listed : .channel c ∈ late)
    (on : s.monitorOn = true) :
    (s.tickReaches late (.channel c)).mon c = { s.mon c with sampleDue := true } := by
  rw [State.tickReaches_channel, if_pos ⟨listed, on⟩, State.mon_setMon]

/-- R71, R107, R148: a tick that brings no line to its timeout changes the lines' timers, the monitor records
and the notice causes only. -/
theorem State.tickReaches_parts {s : State} (below : ∀ n, .line n ∉ late → s.BelowTimeout n) :
    let t := tickParts.foldl (State.tickReaches late) s
    (∀ n, t.line n = (s.line n).ticked (decide (.line n ∈ late))) ∧
    (∀ c, .channel c ∈ late → s.monitorOn = true → t.mon c = { s.mon c with sampleDue := true }) ∧
    (∀ c, s.monitorOn = false → t.mon c = s.mon c) ∧
    t = { s with lines := t.lines, mons := t.mons, port := { s.port with causes := t.port.causes } } := by
  intro t
  let u := (([0, 1, 2, 3] : List LineNo).map TickPart.line).foldl (State.tickReaches late) s
  let v := u.tickReaches late (.channel .A)
  obtain ⟨lines, uFrame⟩ : (∀ n, u.line n = _) ∧ u = { s with lines := u.lines } :=
    State.tickReaches_lines (by decide) fun n _ => below n
  have vFrame : v = { u with mons := v.mons, port := { u.port with causes := v.port.causes } } :=
    u.tickReaches_channel_frame .A
  have tFrame : t = { v with mons := t.mons, port := { v.port with causes := t.port.causes } } :=
    v.tickReaches_channel_frame .B
  have uOn : u.monitorOn = s.monitorOn := (congrArg State.monitorOn uFrame :)
  have vOn : v.monitorOn = s.monitorOn := (congrArg State.monitorOn vFrame :).trans uOn
  have uMon (c : Chan) : u.mon c = s.mon c := (congrArg (State.mon · c) uFrame :)
  have vMon : v.mon .B = s.mon .B := (u.mon_tickReaches_ne (by decide)).trans (uMon .B)
  have tMon : t.mon .A = v.mon .A := v.mon_tickReaches_ne (by decide)
  have tLines : t.lines = u.lines := (congrArg State.lines tFrame :).trans (congrArg State.lines vFrame :)
  refine ⟨fun n => ?_, fun c listed on => ?_, fun c off => ?_, ?_⟩
  · have tLine : t.line n = u.line n := congrArg (Quad.get · n) tLines
    have every : n ∈ ([0, 1, 2, 3] : List LineNo) := by fin_cases n <;> decide
    rw [tLine, lines, if_pos every]
  · cases c with
    | A => exact tMon.trans ((State.mon_tickReaches_late listed (uOn.trans on)).trans (by rw [uMon]))
    | B => exact (State.mon_tickReaches_late listed (vOn.trans on)).trans (by rw [vMon])
  · have stays : t = u :=
      (State.tickReaches_channel_off (vOn.trans off) .B).trans (State.tickReaches_channel_off (uOn.trans off) .A)
    rw [stays, uMon]
  · rw [vFrame, uFrame] at tFrame
    rw [tLines]
    exact tFrame

end

/-- R71: the timer of a line in HEADER, TEXT, CHECK or SKIP counts the ticks that are not late. -/
theorem Line.ticked_eq (l : Line) (late : Bool) :
    l.ticked late =
      if late = true then { l with tickDue := true }
      else if l.state = .header ∨ l.state = .text ∨ l.state = .check ∨ l.state = .skip then
        { l with timer := min 60 (l.timer + 1) }
      else l :=
  if_congr Iff.rfl rfl (if_congr LineState.counts_iff rfl rfl)

/-! ### The office clock (R102, R107) -/

theorem State.advanceClock_eq (s : State) :
    let head := (s.head + 1) % 64
    s.advanceClock = { s with
      time := min 4294967295 (s.time + 1), head := head, lateTicks := s.lateTicks.tail
      visits := if s.wheelList head = [] then s.visits
        else s.visits ++ [{ slot := head, todo := s.wheelList head }] } := by
  intro head
  have visits : (if (s.wheelList head).isEmpty = true then s.visits
      else s.visits ++ [{ slot := head, todo := s.wheelList head }]) = _ :=
    if_congr List.isEmpty_iff rfl rfl
  rw [← visits]
  rfl

theorem exec_tick {s : State} (clear : s.op ≠ some .autoclear) : exec .tick s = .next s.countTick :=
  congrArg Host.Outcome.next (if_neg clear)

/-! ### What a tick has left to take (R71, R107) -/

/-- Whether part `p` has still to take a tick. -/
def State.due (s : State) (p : TickPart) : Bool :=
  match p with
  | .line n => (s.line n).tickDue
  | .channel c => (s.mon c).sampleDue

/-- R71, R107, R148: part `p` takes the tick that it has still to take. -/
def State.takePart (s : State) (p : TickPart) : State :=
  match p with
  | .line n => s.takeLateTick n
  | .channel c => s.takeLateSample c

/-- Log 5: what is late is taken in the order in which a tick reaches its parts. -/
theorem State.takeLate_eq (s : State) : s.takeLate = tickParts.foldl State.takePart s := rfl

/-- Nothing that decides who takes a tick, and when, differs between the two states. -/
structure State.KeepsTicks (s u : State) : Prop where
  due : ∀ p, u.due p = s.due p
  late : u.lateTicks = s.lateTicks
  clear : s.op ≠ some .autoclear → u.op ≠ some .autoclear

theorem State.KeepsTicks.refl (s : State) : s.KeepsTicks s := ⟨fun _ => rfl, rfl, id⟩

/-- R91: an ending leaves the ticks still to be taken, and begins no autoclear. -/
theorem State.KeepsTicks.endEntry (s : State) (k : Ending) (t : Tag) : s.KeepsTicks (s.endEntry k t) where
  due
    | .line n => by
      obtain ⟨b, hb⟩ := s.line_endEntry k t n
      exact (congrArg Line.tickDue hb :)
    | .channel c => congrArg (fun q => (Duo.get q c).sampleDue) (s.endEntry_mons k t)
  late := (congrArg State.lateTicks (s.endEntry_outside k t) :)
  clear h := by
    rcases s.endEntry_op_cases k t with op | ⟨a, op⟩ <;> rw [op]
    · exact h
    · simp

/-- A line written with the tick that it had still to take. -/
theorem State.KeepsTicks.setLine {s u : State} (h : s.KeepsTicks u) {n : LineNo} {l : Line}
    (same : l.tickDue = (s.line n).tickDue) : s.KeepsTicks (u.setLine n l) where
  due
    | .line m => by
      by_cases hm : m = n
      · subst hm
        exact (congrArg Line.tickDue (u.line_setLine m l)).trans same
      · exact (congrArg Line.tickDue (u.line_setLine_ne l hm)).trans (h.due (.line m))
    | .channel c => h.due (.channel c)
  late := h.late
  clear := h.clear

/-- R72 -/
theorem State.KeepsTicks.abortLine (s : State) (n : LineNo) (c : AbortCause) :
    s.KeepsTicks (s.abortLine n c) := by
  have same : ((s.line n).abort c).tickDue = (s.line n).tickDue := by
    rw [Line.abort_eq]
    split_ifs <;> rfl
  have withdrawn {u : State} (h : s.KeepsTicks u) : s.KeepsTicks (u.dropLookup (isRequestOf (.line n))) :=
    ⟨h.due, h.late, h.clear⟩
  unfold State.abortLine
  dsimp only
  cases (s.line n).bound with
  | none => exact (withdrawn (.refl s)).setLine same
  | some t => exact (withdrawn (.endEntry s .aborted t)).setLine same

/-- R71 -/
theorem State.KeepsTicks.tickLine (s : State) (n : LineNo) : s.KeepsTicks (s.tickLine n) := by
  rcases s.tickLine_cases n with ⟨-, stays⟩ | ⟨-, -, aborts⟩ | ⟨-, -, counts⟩
  · rw [stays]
    exact .refl s
  · rw [aborts]
    exact .abortLine s n .timeout
  · rw [counts]
    exact (State.KeepsTicks.refl s).setLine rfl

/-- R147, R148: a sample and its move leave the samples still to be made. -/
theorem State.sampleDue_sample (s : State) (c : Chan) : ((s.sample c).mon c).sampleDue = (s.mon c).sampleDue := by
  have moved (m : Monitor) (l : Nat) : (m.movedTo l).sampleDue = m.sampleDue := by
    unfold Monitor.movedTo
    split <;> rfl
  cases on : s.monitorOn with
  | false => rw [State.sample_of_off on]
  | true =>
    obtain ⟨moves, stays⟩ := State.sample_of_on (c := c) on rfl rfl
    cases target : s.sampleTarget _ _ _ with
    | some l =>
      rw [moves l target, State.mon_moveLevel, moved, State.mon_setMon]
      rfl
    | none =>
      rw [stays target, State.mon_setMon]
      rfl

theorem State.KeepsTicks.sample (s : State) (c : Chan) : s.KeepsTicks (s.sample c) where
  due
    | .line n => (congrArg (fun u : State => (u.line n).tickDue) (s.sample_frame c) :)
    | .channel k => by
      by_cases hk : k = c
      · exact hk ▸ s.sampleDue_sample c
      · exact congrArg Monitor.sampleDue (s.mon_sample_ne hk)
  late := (congrArg State.lateTicks (s.sample_frame c) :)
  clear h := by rwa [s.sample_frame c]

/-- Part `p` of the state has no tick left to take; the other parts have what they had. -/
structure State.Cleared (s : State) (p : TickPart) (u : State) : Prop where
  due : ∀ q, u.due q = (s.due q && decide (q ≠ p))
  late : u.lateTicks = s.lateTicks
  clear : s.op ≠ some .autoclear → u.op ≠ some .autoclear

theorem State.Cleared.keeps {s u v : State} {p : TickPart} (h : s.Cleared p u) (keeps : u.KeepsTicks v) :
    s.Cleared p v :=
  ⟨fun q => (keeps.due q).trans (h.due q), keeps.late.trans h.late, fun clear => keeps.clear (h.clear clear)⟩

/-- A part with no tick left to take. -/
theorem State.Cleared.of_clear {s : State} {p : TickPart} (taken : s.due p = false) : s.Cleared p s where
  due q := by
    by_cases same : q = p
    · rw [same, taken, Bool.false_and]
    · rw [decide_eq_true same, Bool.and_true]
  late := rfl
  clear := id

theorem State.Cleared.setTickDue (s : State) (n : LineNo) : s.Cleared (.line n) (s.setTickDue n false) where
  due
    | .line m => by
      by_cases same : m = n
      · subst same
        exact (congrArg Line.tickDue (s.line_setLine m _)).trans (by simp)
      · exact (congrArg Line.tickDue (s.line_setLine_ne _ same)).trans (by simp [same, State.due])
    | .channel c => (Bool.and_true _).symm
  late := rfl
  clear := id

theorem State.Cleared.setSampleDue (s : State) (c : Chan) :
    s.Cleared (.channel c) (s.setSampleDue c false) where
  due
    | .line n => (Bool.and_true _).symm
    | .channel k => by
      by_cases same : k = c
      · subst same
        exact (congrArg Monitor.sampleDue (s.mon_setMon k _)).trans (by simp)
      · exact (congrArg Monitor.sampleDue (s.mon_setMon_ne _ same)).trans (by simp [same, State.due])
  late := rfl
  clear := id

/-- R71, R107, R148: a part that takes the tick that it has still to take. -/
theorem State.cleared_takePart (s : State) (p : TickPart) : s.Cleared p (s.takePart p) := by
  cases p with
  | line n =>
    show s.Cleared (.line n) (s.takeLateTick n)
    unfold State.takeLateTick
    split
    · exact (State.Cleared.setTickDue s n).keeps (.tickLine _ n)
    · next due => exact .of_clear (Bool.eq_false_iff.2 due)
  | channel c =>
    show s.Cleared (.channel c) (s.takeLateSample c)
    unfold State.takeLateSample
    split
    · exact (State.Cleared.setSampleDue s c).keeps (.sample _ c)
    · next due => exact .of_clear (Bool.eq_false_iff.2 due)

/-- R71, R107: several parts that take what they have still to take, one after another. -/
theorem State.foldl_takePart (ps : List TickPart) (s : State) :
    let u := ps.foldl State.takePart s
    (∀ q, u.due q = (s.due q && decide (q ∉ ps))) ∧ u.lateTicks = s.lateTicks ∧
      (s.op ≠ some .autoclear → u.op ≠ some .autoclear) := by
  induction ps generalizing s with
  | nil => exact ⟨fun q => by simp, rfl, id⟩
  | cons p ps ih =>
    have first := s.cleared_takePart p
    obtain ⟨due, late, clear⟩ := ih (s.takePart p)
    refine ⟨fun q => ?_, late.trans first.late, fun h => clear (first.clear h)⟩
    refine (due q).trans ?_
    rw [first.due, Bool.and_assoc, ← Bool.decide_and]
    simp only [List.mem_cons, not_or]

/-- R107: after what is late has been taken, nothing is left to take. -/
theorem State.takeLate_takeLate (s : State) : s.takeLate.takeLate = s.takeLate := by
  obtain ⟨due, -, -⟩ := s.foldl_takePart tickParts
  rw [← State.takeLate_eq] at due
  have listed : ∀ p : TickPart, p ∈ tickParts
    | .line n => by fin_cases n <;> decide
    | .channel c => by cases c <;> decide
  have taken (p : TickPart) : s.takeLate.due p = false :=
    (due p).trans (by rw [decide_eq_false (not_not_intro (listed p)), Bool.and_false])
  exact State.takeLate_of_clear (fun n => taken (.line n)) (fun c => taken (.channel c))

/-- R107: what is late may be taken at rows of its own just before the tick. -/
theorem exec_tick_takeLate {s : State} (clear : s.op ≠ some .autoclear) :
    exec .tick s.takeLate = exec .tick s := by
  obtain ⟨-, late, keeps⟩ := s.foldl_takePart tickParts
  rw [← State.takeLate_eq] at late keeps
  rw [exec_tick clear, exec_tick (keeps clear), State.countTick, State.countTick, late,
    State.takeLate_takeLate]

/-! ### READ CLOCK and SET CLOCK (R103) -/

/-- R103: the entries that stand in a state are counted over the slots. -/
theorem State.countState_eq (s : State) (st : PageState) :
    s.countState st = s.liveEntries.countP (fun e => e.state = st) := by
  rw [State.liveEntries, List.countP_filterMap, State.countState]
  congr 1
  funext i
  cases (s.slot i).entry <;> simp

theorem beValue_four (b0 b1 b2 b3 : Byte) :
    beValue [b0, b1, b2, b3] = 16777216 * b0.toNat + 65536 * b1.toNat + 256 * b2.toNat + b3.toNat := by
  simp only [beValue, List.foldl_cons, List.foldl_nil]
  omega

theorem setClock_taken {s : State} {b0 b1 b2 b3 : Byte}
    (harr : s.lastArrives .setClock [b0, b1, b2] b3 noDesig) (idle : s.op = none) :
    exec (.setClock (.last b3)) s =
      .next { s.afterLast [0x00] with time := beValue [b0, b1, b2, b3] } :=
  congrArg Host.Outcome.next (portLast_taken harr (.inl idle))

theorem readClock_taken {s : State} (harr : s.codeArrives .readClock noDesig) :
    exec .readClock s = .next (s.afterCode
      (0x00 :: (beBytes 4 s.time ++ [byteOf s.head] ++ beBytes 2 (s.countState .waiting)
        ++ beBytes 2 (s.countState .listening)))) :=
  congrArg Host.Outcome.next (portCode_operative harr)

/-- Settles O40: the parts that take a tick one after another, the ticks that are late, and the two clock
commands. -/
theorem ticksAndTheClock : Obligations.TicksAndTheClock := by
  refine ⟨fun s clear lines channels => ?_, fun s clear => ?_, fun s => ⟨fun b0 b1 b2 b3 harr idle => ?_,
    fun harr => ?_⟩⟩
  · intro head late clocked takes
    have reaches : State.tickReaches late = takes := funext₂ fun u p =>
      match p with
      | .line n => rfl
      | .channel c => u.tickReaches_channel c
    have begun : s.takeLate.advanceClock = clocked := by
      rw [State.takeLate_of_clear lines channels]
      exact s.advanceClock_eq
    have counted : exec .tick s = .next (tickParts.foldl (State.tickReaches late) clocked) := by
      rw [exec_tick clear, State.countTick, begun]
    refine ⟨counted.trans (by rw [reaches]; rfl), fun below => ⟨_, counted, ?_⟩⟩
    obtain ⟨ticked, due, still, frame⟩ := State.tickReaches_parts (s := clocked) below
    refine ⟨fun n => ?_, due, still, frame⟩
    rw [ticked, Line.ticked_eq]
    exact if_congr decide_eq_true_iff rfl rfl
  · intro after
    exact (exec_tick_takeLate clear).symm
  · rw [setClock_taken harr idle, beValue_four]
  · rw [readClock_taken harr, State.countState_eq, State.countState_eq]
    rfl

end Sys2Proof.Machine
end
